-- ==== Sys2Proof/Word.lean ====
section
/-! DEFINITION. The kinds of number the block moves (00_scope.md R6, R7, R9).

Every value is an unsigned integer of a stated width (R7). The widths `W` and `CNT_W` are parameters
of the build (R6), so a value of either width is a `Nat`, its bound is kept by the invariant
`Machine.State.Inv`, and the rules' exact products, sums, remainders and shifts are those of `Nat`
(R9; DESIGN CHOICE, safe: log entry 2). Widths that are the same in every build are bit vectors. -/

namespace Sys2Proof

/-- `OP_M`, `OP_LEN` and their latches: 16 bits in every build (`SIZE_W`, 00_scope.md R6). -/
abbrev Size := BitVec 16

/-- A command word: 32 bits in every build (10_state.md R34, 30_encoding.md R90). -/
abbrev CmdWord := BitVec 32

/-- `v` is an unsigned `n`-bit value (00_scope.md R7). -/
abbrev Fits (n v : Nat) : Prop := v < 2 ^ n

end Sys2Proof
end

