-- ==== Sys2Proof/Config.lean ====
section
/-! DEFINITION. The parameters of a build (00_scope.md R6) and the free values
(93_implementation_defined.md U1). -/

namespace Sys2Proof

/-- The numeric parameters of 00_scope.md R6. `SIZE_W` is 16 in every build and `BASE`, the bus
width and the bus protocol are left to the platform (20_memory.md R75). -/
structure Config where
  /-- `W`: the width of the data path. -/
  W : Nat
  /-- `CNT_W`: the width of counts. -/
  cntW : Nat
  /-- `HIST_DEPTH`: the capacity of the visited set and of the output buffer. -/
  histDepth : Nat
deriving DecidableEq, Repr

/-- The constraints of 00_scope.md R6. -/
abbrev Config.Legal (c : Config) : Prop :=
  64 ≤ c.W ∧ c.W ≤ 65535 ∧ 1 ≤ c.cntW ∧ 1 ≤ c.histDepth ∧ c.histDepth ≤ 2 ^ c.cntW - 1

/-- The reference values of 00_scope.md R6. -/
def Config.reference : Config := { W := 64, cntW := 32, histDepth := 65536 }

/-- The free values of a reset event: what the spec leaves unspecified there is `freeValue k` for a
fresh `k`, cut to the width of what it fills (10_state.md R41). It has no body: nothing can be proved
of it (DESIGN CHOICE, safe: log entry 6). The free value of a read is `Config.freeOutData`. -/
opaque Config.freeValue : Nat → Nat

end Sys2Proof
end

