-- ==== Sys2Proof/Machine/Registers.lean ====
section
/-! DEFINITION. The host-visible registers (10_state.md R21) and what the host can do to the block
(43_host_access.md R190, R191; 70_reset_and_hazards.md R240). -/

namespace Sys2Proof.Machine

/-- The 15 assigned registers, in the order of their numbers (10_state.md R21). -/
inductive Reg where
  | cmd | status | opA | opB | opM | opLen | opTaps | opSeed | opN | opModulus
  | resPreperiod | resLen | outIdx | outData | genState
deriving DecidableEq, Repr

/-- The access rights of 10_state.md R21. -/
inductive Access where
  /-- The host may read and write it. -/
  | rw
  /-- Host writes are ignored. -/
  | ro
  /-- A host read returns 0. -/
  | wo
deriving DecidableEq, Repr

/-- The register a number stands for; numbers from 0x0F up are unassigned (10_state.md R21). -/
def Reg.ofNumber (n : Nat) : Option Reg :=
  match n with
  | 0x00 => some .cmd
  | 0x01 => some .status
  | 0x02 => some .opA
  | 0x03 => some .opB
  | 0x04 => some .opM
  | 0x05 => some .opLen
  | 0x06 => some .opTaps
  | 0x07 => some .opSeed
  | 0x08 => some .opN
  | 0x09 => some .opModulus
  | 0x0A => some .resPreperiod
  | 0x0B => some .resLen
  | 0x0C => some .outIdx
  | 0x0D => some .outData
  | 0x0E => some .genState
  | _ => none

/-- The number of a register (10_state.md R21). -/
def Reg.number (r : Reg) : Nat :=
  match r with
  | .cmd => 0x00
  | .status => 0x01
  | .opA => 0x02
  | .opB => 0x03
  | .opM => 0x04
  | .opLen => 0x05
  | .opTaps => 0x06
  | .opSeed => 0x07
  | .opN => 0x08
  | .opModulus => 0x09
  | .resPreperiod => 0x0A
  | .resLen => 0x0B
  | .outIdx => 0x0C
  | .outData => 0x0D
  | .genState => 0x0E

/-- The width in bits of a register in a build (10_state.md R21). -/
def Reg.width (c : Config) (r : Reg) : Nat :=
  match r with
  | .cmd | .status => 32
  | .opM | .opLen => 16
  | .opN | .resPreperiod | .resLen | .outIdx => c.cntW
  | .opA | .opB | .opTaps | .opSeed | .opModulus | .outData | .genState => c.W

/-- The access rights of a register (10_state.md R21). -/
def Reg.access (r : Reg) : Access :=
  match r with
  | .cmd => .wo
  | .status | .resPreperiod | .resLen | .outData | .genState => .ro
  | .opA | .opB | .opM | .opLen | .opTaps | .opSeed | .opN | .opModulus | .outIdx => .rw

/-- What the outside does to the block, one at a time and between commands (20_memory.md R70). -/
inductive HostEvent where
  /-- `WR`: a host write of a value to a register number (43_host_access.md R190). -/
  | wr (number value : Nat)
  /-- `RD`: a host read of a register number (43_host_access.md R191). -/
  | rd (number : Nat)
  /-- The reset event (70_reset_and_hazards.md R240). -/
  | reset
deriving DecidableEq, Repr

end Sys2Proof.Machine
end

