-- ==== Sys2Proof/Syntax.lean ====
section
/-! DEFINITION. The commands: one constructor for each row of spec/opcode_table.json
(30_encoding.md R94). -/

namespace Sys2Proof

/-- The legal commands of the block (30_encoding.md R94). Everything else a command needs is read
from operand registers (R93). -/
inductive Instr where
  /-- `CONSTRUCT.LCG`: format `C` with `KIND = 0` (40_lcg_engine.md R124). -/
  | constructLcg
  /-- `CONSTRUCT.LFSR`: format `C` with `KIND = 1` (41_lfsr_engine.md R147). -/
  | constructLfsr
  /-- `RUN`: format `N` with its three flags `STOP`, `MODEN`, `RESEED` (42_sequence_runner.md R169). -/
  | run (stop moden reseed : Bool)
deriving DecidableEq, Repr

end Sys2Proof
end

