-- ==== Sys2Proof/WellFormed.lean ====
section
/-! DEFINITION. Which commands and which host accesses the spec gives a meaning. -/

namespace Sys2Proof

/-- Every term of `Instr` is well formed: `KIND` has two legal values, and each of the three flags
of `RUN` may be 0 or 1 (30_encoding.md R91, R92, R94). There is no operand to check here: operand
registers are checked by the command that reads them (10_state.md R22). -/
def Instr.wf (i : Instr) : Bool :=
  match i with
  | .constructLcg => true
  | .constructLfsr => true
  | .run _ _ _ => true

namespace Machine

/-- The accesses the spec gives a meaning: the register number is assigned (43_host_access.md R193)
and a written value has the register's width (R190). -/
def HostEvent.wf (c : Config) (e : HostEvent) : Bool :=
  match e with
  | .wr n v =>
    match Reg.ofNumber n with
    | some r => decide (v < 2 ^ r.width c)
    | none => false
  | .rd n => (Reg.ofNumber n).isSome
  | .reset => true

end Machine

end Sys2Proof
end

