-- ==== Sys2Proof/Decode.lean ====
section
/-! DEFINITION. Decoding and encoding of command words (30_encoding.md R90 to R99). -/

namespace Sys2Proof

/-- Why a word spells no command (30_encoding.md R95). -/
inductive IllegalWord where
  /-- `IC_OPCODE`: `OPC` is neither 0x1 nor 0x2. -/
  | opcode
  /-- `IC_RESERVED`: a legal `OPC` with a reserved bit set. -/
  | reserved
deriving DecidableEq, Repr

/-- What a word decodes to: exactly one command or one illegality (30_encoding.md R99). -/
inductive Decoded where
  | instr (i : Instr)
  | illegal (why : IllegalWord)
deriving DecidableEq, Repr

/-- The opcode field `OPC = c[3:0]` (30_encoding.md R90). -/
def opc (c : CmdWord) : BitVec 4 := c.extractLsb' 0 4

/-- The bits that format `C` reserves: 31:9 and 7:4 (30_encoding.md R90). -/
def reservedC : CmdWord := 0xFFFFFEF0#32

/-- The bits that format `N` reserves: 31:11 and 7:4 (30_encoding.md R90). -/
def reservedN : CmdWord := 0xFFFFF8F0#32

/-- `Decode(c)` of 30_encoding.md R99: total, rejecting by name. -/
def decode (c : CmdWord) : Decoded :=
  if opc c = 0x1#4 then
    if c &&& reservedC ≠ 0#32 then .illegal .reserved
    else if c.getLsbD 8 then .instr .constructLfsr
    else .instr .constructLcg
  else if opc c = 0x2#4 then
    if c &&& reservedN ≠ 0#32 then .illegal .reserved
    else .instr (.run (c.getLsbD 8) (c.getLsbD 9) (c.getLsbD 10))
  else .illegal .opcode

/-- A one-bit field at bit `k` of a command word. -/
def flagAt (k : Nat) (b : Bool) : CmdWord := if b then 1#32 <<< k else 0#32

/-- The word of a command, from the format tables of 30_encoding.md R90: `OPC` in bits 3:0, `KIND`
or `STOP` at bit 8, `MODEN` at bit 9, `RESEED` at bit 10, every other bit 0. -/
def encode (i : Instr) : CmdWord :=
  match i with
  | .constructLcg => 0x1#32 ||| flagAt 8 false
  | .constructLfsr => 0x1#32 ||| flagAt 8 true
  | .run stop moden reseed => 0x2#32 ||| flagAt 8 stop ||| flagAt 9 moden ||| flagAt 10 reseed

/-- The command that an `nbits`-bit word `w` spells, its bits numbered as spec/opcode_table.json
numbers them: a command word is one 32-bit register value, so bit 0 of the row is bit 0 of `CMD`
and no byte order arises (30_encoding.md R90, 20_memory.md R67). A word that does not fit 32 bits is
no command word (DEDUCED, safe: log entry 13). -/
def decodeTableWord (nbits w : Nat) : Option Instr :=
  if w % 2 ^ nbits < 2 ^ 32 then
    match decode (BitVec.ofNat 32 (w % 2 ^ nbits)) with
    | .instr i => some i
    | .illegal _ => none
  else none

end Sys2Proof
end

