-- ==== Sys2Proof/Machine/State.lean ====
section
/-! DEFINITION. The state of the block (10_state.md R20, R41), the reasons a step can stop, and the
state after reset. -/

namespace Sys2Proof.Machine

/-- Why the machine stops with a fault: never. The block has no traps: an error ends its command,
is reported in `STATUS`, and the next access proceeds (43_host_access.md R194, 60_exceptions.md
R212, R214). The type has no constructor (DEDUCED, safe: log entry 11). -/
inductive Fault where
deriving DecidableEq, Repr

/-- Why a step has no meaning. -/
inductive Refusal where
  /-- A command of the opcode table without a meaning yet. Raised by `exec`'s refused arms only, of
  which there are none. Safe. -/
  | notModelled (mnemonic : String)
  /-- A host access to a register number at or above 0x0F: "A model refuses such an access"
  (43_host_access.md R193). Raised by `hostWrite` and `hostRead`. Safe: log entry 9. -/
  | unassignedRegister (number : Nat)
  /-- A host write of a value that does not have the register's width, which 43_host_access.md R190
  cannot express. Raised by `hostWrite`. Safe: log entry 10. -/
  | valueTooWide (number value : Nat)
deriving DecidableEq, Repr

/-- `G_KIND`: which engine the generator uses (10_state.md R28). -/
inductive Kind where
  /-- `G_KIND = 0`. -/
  | lcg
  /-- `G_KIND = 1`. -/
  | lfsr
deriving DecidableEq, Repr

/-- The output buffer `OUT` (20_memory.md R64): index and value of every entry written since reset,
in rising order of the index. An index that is not listed holds no value the spec names
(10_state.md R41; log entry 4). -/
abbrev OutBuffer := List (Nat × Nat)

/-- The state of the block. Each field names the register, latch or memory it is and the rule that
gives it; the last four are the model's own. `VISITED` and the working variables of a run are not
state between commands (10_state.md R39). -/
structure State where
  /-- `OP_A`, `W` bits (10_state.md R23). -/
  opA : Nat
  /-- `OP_B`, `W` bits (10_state.md R23). -/
  opB : Nat
  /-- `OP_M`, 16 bits (10_state.md R24). -/
  opM : Size
  /-- `OP_LEN`, 16 bits (10_state.md R24). -/
  opLen : Size
  /-- `OP_TAPS`, `W` bits (10_state.md R25). -/
  opTaps : Nat
  /-- `OP_SEED`, `W` bits (10_state.md R26). -/
  opSeed : Nat
  /-- `OP_N`, `CNT_W` bits (10_state.md R27). -/
  opN : Nat
  /-- `OP_MODULUS`, `W` bits (10_state.md R27). -/
  opModulus : Nat
  /-- `OUT_IDX`, `CNT_W` bits (10_state.md R33). -/
  outIdx : Nat
  /-- `G_KIND` (10_state.md R28). -/
  gKind : Kind
  /-- `G_A`, `W` bits (10_state.md R28). -/
  gA : Nat
  /-- `G_B`, `W` bits (10_state.md R28). -/
  gB : Nat
  /-- `G_M`, 16 bits (10_state.md R28). -/
  gM : Size
  /-- `G_LEN`, 16 bits (10_state.md R28). -/
  gLen : Size
  /-- `G_TAPS`, `W` bits (10_state.md R28). -/
  gTaps : Nat
  /-- `G_SEED`, `W` bits (10_state.md R28). -/
  gSeed : Nat
  /-- `X`, the generator state, `W` bits (10_state.md R29). -/
  x : Nat
  /-- `GVALID` (10_state.md R37). -/
  gValid : Bool
  /-- `RVALID` (10_state.md R37). -/
  rValid : Bool
  /-- `ERRKIND` (10_state.md R35). -/
  errKind : BitVec 2
  /-- `ERRCAUSE` (10_state.md R35). -/
  errCause : BitVec 4
  /-- `RES_PREPERIOD`, `CNT_W` bits (10_state.md R32). -/
  resPreperiod : Nat
  /-- `RES_LEN`, `CNT_W` bits (10_state.md R32). -/
  resLen : Nat
  /-- `OUT` (20_memory.md R64). -/
  out : OutBuffer
  /-- The model's own: the build's parameters, which no step changes (00_scope.md R6, 10_state.md
  R40; log entry 1). -/
  cfg : Config
  /-- The model's own: what the outside has still to do to the block, in order (30_encoding.md R97,
  20_memory.md R70; log entry 7). -/
  host : List HostEvent
  /-- The model's own: the values the host's reads returned, newest first (43_host_access.md R191;
  log entry 8). -/
  readLog : List Nat
  /-- The model's own: how many free values reset events have taken (log entry 6). -/
  draws : Nat
deriving DecidableEq, Repr

/-- The block without the host's own lists: what is left when nobody says what the host has still to
do and what it has read. A host read changes nothing of it (20_memory.md R69). -/
def State.block (s : State) : State := { s with host := [], readLog := [] }

/-- The state of a build after reset (10_state.md R41): no generator, no result, no error, nothing
in `OUT`. Every other register is unspecified there and holds 0 here (DESIGN CHOICE, unsafe: log
entry 3). -/
def State.resetOf (c : Config) : State where
  opA := 0
  opB := 0
  opM := 0
  opLen := 0
  opTaps := 0
  opSeed := 0
  opN := 0
  opModulus := 0
  outIdx := 0
  gKind := .lcg
  gA := 0
  gB := 0
  gM := 0
  gLen := 0
  gTaps := 0
  gSeed := 0
  x := 0
  gValid := false
  rValid := false
  errKind := 0
  errCause := 0
  resPreperiod := 0
  resLen := 0
  out := []
  cfg := c
  host := []
  readLog := []
  draws := 0

/-- The reference build of 00_scope.md R6 right after reset (log entries 1 and 3). -/
def State.reset : State := State.resetOf Config.reference

end Sys2Proof.Machine

namespace Sys2Proof

/-- The free value of a read of `OUT_DATA` outside a result, for the block as it stands
(93_implementation_defined.md U3). It has no body: nothing can be proved of it but that the same
block returns the same value, since reads are idempotent (20_memory.md R69; DEDUCED, safe: log entry
4). -/
opaque Config.freeOutData : Machine.State → Nat

end Sys2Proof
end

