-- ==== Sys2Proof/Machine/Flags.lean ====
section
/-! DEFINITION. The error codes (60_exceptions.md R205) and the `STATUS` register (10_state.md R35). -/

namespace Sys2Proof.Machine

/-- The error causes of 60_exceptions.md R205. -/
inductive ErrorCause where
  | ceMZero | ceMWide | ceLenZero | ceLenWide | ceTapRange | ceSeedRange
  | iaNZero | iaNCap | iaModZero
  | icOpcode | icReserved | icNoGen
deriving DecidableEq, Repr

/-- `ERRKIND` of a cause: 1 ConfigurationError, 2 InvalidArgument, 3 IllegalCommand
(60_exceptions.md R205). -/
def ErrorCause.kind (e : ErrorCause) : BitVec 2 :=
  match e with
  | .ceMZero | .ceMWide | .ceLenZero | .ceLenWide | .ceTapRange | .ceSeedRange => 1#2
  | .iaNZero | .iaNCap | .iaModZero => 2#2
  | .icOpcode | .icReserved | .icNoGen => 3#2

/-- `ERRCAUSE` of a cause (60_exceptions.md R205). -/
def ErrorCause.code (e : ErrorCause) : BitVec 4 :=
  match e with
  | .ceMZero => 1#4
  | .ceMWide => 2#4
  | .ceLenZero => 3#4
  | .ceLenWide => 4#4
  | .ceTapRange => 5#4
  | .ceSeedRange => 6#4
  | .iaNZero => 1#4
  | .iaNCap => 2#4
  | .iaModZero => 3#4
  | .icOpcode => 1#4
  | .icReserved => 2#4
  | .icNoGen => 3#4

/-- The cause that an illegal word raises (30_encoding.md R95). -/
def illegalCause (w : IllegalWord) : ErrorCause :=
  match w with
  | .opcode => .icOpcode
  | .reserved => .icReserved

/-- The bit that stands for a kind: 0 = LCG, 1 = LFSR (10_state.md R28). -/
def Kind.bit (k : Kind) : Bool :=
  match k with
  | .lcg => false
  | .lfsr => true

/-- `GKIND` as read: `G_KIND` while a generator exists, else 0 (10_state.md R35). -/
def State.gKindRead (s : State) : Bool := s.gValid && s.gKind.bit

/-- `STATUS` as read: `GVALID | GKIND << 1 | RVALID << 2 | ERRKIND << 8 | ERRCAUSE << 12`
(43_host_access.md R191). -/
def State.statusWord (s : State) : BitVec 32 :=
  flagAt 0 s.gValid ||| flagAt 1 s.gKindRead ||| flagAt 2 s.rValid
    ||| s.errKind.setWidth 32 <<< 8 ||| s.errCause.setWidth 32 <<< 12

end Sys2Proof.Machine
end

