-- ==== Sys2Proof/Machine/Ops.lean ====
section
/-! DEFINITION. The operations every meaning is written with: the two memories (20_memory.md R62 to
R65), the error report (60_exceptions.md R211, R212), the free values, and the one home of register
reads and writes (43_host_access.md R190, R191). -/

namespace Sys2Proof.Machine

/-! ### The output buffer -/

/-- What was last written at index `k` of `OUT`, if anything was since reset (20_memory.md R64). -/
def OutBuffer.read (m : OutBuffer) (k : Nat) : Option Nat :=
  match m with
  | [] => none
  | (j, w) :: rest => if k = j then some w else OutBuffer.read rest k

/-- `OUT[k] <- v` (20_memory.md R65), keeping the indices in rising order. -/
def OutBuffer.write (m : OutBuffer) (k : Nat) (v : Nat) : OutBuffer :=
  match m with
  | [] => [(k, v)]
  | (j, w) :: rest =>
    if k < j then (k, v) :: (j, w) :: rest
    else if k = j then (k, v) :: rest
    else (j, w) :: OutBuffer.write rest k v

/-- The canonical form: the indices strictly rise. An unlisted index reads as no value, so no entry
can equal what an unlisted index reads as. -/
def OutBuffer.wf (m : OutBuffer) : Bool := decide (m.Pairwise fun a b => a.1 < b.1)

/-! ### The visited set -/

/-- `HistContains(v)`: exact membership (20_memory.md R62). -/
def histContains (visited : List Nat) (v : Nat) : Bool := decide (v ∈ visited)

/-- `HistInsert(v)`: `VISITED ∪ {v}`; a value already present changes nothing (20_memory.md R63). -/
def histInsert (visited : List Nat) (v : Nat) : List Nat :=
  if v ∈ visited then visited else v :: visited

/-! ### The error report and the validity flags -/

/-- Every command that passes decode starts by clearing the error report (60_exceptions.md R211). -/
def State.clearError (s : State) : State := { s with errKind := 0, errCause := 0 }

/-- `raise Kind(CAUSE)`: the one error entry (60_exceptions.md R212). It records the two codes of
R205 and nothing else: there is no saved program counter, no vector and no mode, and hence no return
(R214). -/
def State.raise (e : ErrorCause) (s : State) : State :=
  { s with errKind := e.kind, errCause := e.code }

/-- `GVALID <- 0` at the entry of a CONSTRUCT (40_lcg_engine.md R124, 41_lfsr_engine.md R147). -/
def State.dropGenerator (s : State) : State := { s with gValid := false }

/-- `RVALID <- 0` at the entry of a RUN (42_sequence_runner.md R169). -/
def State.dropResult (s : State) : State := { s with rValid := false }

/-! ### Free values -/

/-- The `k`-th fresh free value of a reset event, `n` bits wide (log entry 6). -/
def State.free (s : State) (n k : Nat) : Nat := Config.freeValue (s.draws + k) % 2 ^ n

/-! ### Register reads and writes -/

/-- What `OUT_DATA` shows of a result: `OUT[OUT_IDX]` when `RVALID = 1` and `OUT_IDX < RES_LEN`
(10_state.md R33). `none` is a read whose value the spec leaves unspecified. -/
def State.outWindow (s : State) : Option Nat :=
  if s.rValid = true ∧ s.outIdx < s.resLen then OutBuffer.read s.out s.outIdx else none

/-- `OUT_DATA` as read: the window, or a free `W`-bit value that the block determines
(93_implementation_defined.md U3; log entry 4). -/
def State.outData (s : State) : Nat :=
  match s.outWindow with
  | some w => w
  | none => Config.freeOutData s.block % 2 ^ s.cfg.W

/-- The value a host read of a register returns (43_host_access.md R191). -/
def State.readReg (r : Reg) (s : State) : Nat :=
  match r with
  | .cmd => 0
  | .status => s.statusWord.toNat
  | .opA => s.opA
  | .opB => s.opB
  | .opM => s.opM.toNat
  | .opLen => s.opLen.toNat
  | .opTaps => s.opTaps
  | .opSeed => s.opSeed
  | .opN => s.opN
  | .opModulus => s.opModulus
  | .resPreperiod => s.resPreperiod
  | .resLen => s.resLen
  | .outIdx => s.outIdx
  | .outData => s.outData
  | .genState => s.x

/-- A host write to a register other than `CMD`: storage for operand registers and `OUT_IDX`,
ignored for read-only registers (43_host_access.md R190). A write to `CMD` stores nothing (10_state.md
R34); `hostWrite` executes it. -/
def State.writeReg (r : Reg) (v : Nat) (s : State) : State :=
  match r with
  | .opA => { s with opA := v }
  | .opB => { s with opB := v }
  | .opM => { s with opM := BitVec.ofNat 16 v }
  | .opLen => { s with opLen := BitVec.ofNat 16 v }
  | .opTaps => { s with opTaps := v }
  | .opSeed => { s with opSeed := v }
  | .opN => { s with opN := v }
  | .opModulus => { s with opModulus := v }
  | .outIdx => { s with outIdx := v }
  | .cmd | .status | .resPreperiod | .resLen | .outData | .genState => s

/-- A host read returns a value, which is logged. Nothing of the block changes, for any register
(20_memory.md R69). -/
def State.logRead (r : Reg) (s : State) : State :=
  { s with readLog := s.readReg r :: s.readLog }

end Sys2Proof.Machine
end

