-- ==== Sys2Proof/Machine/Operands.lean ====
section
/-! DEFINITION. What each command reads and the checks it makes on it, at the moment of the `CMD`
write (30_encoding.md R93; order of checks: 60_exceptions.md R210). -/

namespace Sys2Proof.Machine

/-- The checks of `CONSTRUCT.LCG` on `OP_M` and `OP_SEED`, the first that applies (40_lcg_engine.md
R124). `OP_A` and `OP_B` are never checked (10_state.md R23). -/
def State.lcgError (s : State) : Option ErrorCause :=
  if s.opM = 0#16 then some .ceMZero
  else if s.cfg.W < s.opM.toNat then some .ceMWide
  else if 2 ^ s.opM.toNat ≤ s.opSeed then some .ceSeedRange
  else none

/-- The checks of `CONSTRUCT.LFSR` on `OP_LEN`, `OP_TAPS` and `OP_SEED`, the first that applies
(41_lfsr_engine.md R147). -/
def State.lfsrError (s : State) : Option ErrorCause :=
  if s.opLen = 0#16 then some .ceLenZero
  else if s.cfg.W < s.opLen.toNat then some .ceLenWide
  else if s.opTaps >>> s.opLen.toNat ≠ 0 then some .ceTapRange
  else if s.opSeed >>> s.opLen.toNat ≠ 0 then some .ceSeedRange
  else none

/-- The entry checks of `RUN`, the first that applies (42_sequence_runner.md R162). `OP_MODULUS` is
read only when `moden = 1`. -/
def State.runError (moden : Bool) (s : State) : Option ErrorCause :=
  if s.gValid = false then some .icNoGen
  else if s.opN = 0 then some .iaNZero
  else if s.cfg.histDepth < s.opN then some .iaNCap
  else if moden = true ∧ s.opModulus = 0 then some .iaModZero
  else none

/-- The modulus a run projects with: `OP_MODULUS` when `moden = 1`, none otherwise (30_encoding.md
R92). -/
def State.modulusOf (moden : Bool) (s : State) : Option Nat :=
  if moden then some s.opModulus else none

end Sys2Proof.Machine
end

