-- ==== Sys2Proof/Machine/Lcg.lean ====
section
/-! DEFINITION. The LCG engine: `LCG.STEP` and `CONSTRUCT.LCG` (40_lcg_engine.md). -/

namespace Sys2Proof.Machine

/-- `LCG.STEP` (40_lcg_engine.md R121, R122): `x' = (a*x + b) mod 2^m`, the product and the sum
exact. The new state and the emitted value are the same number. -/
def lcgNext (a b : Nat) (m : Nat) (x : Nat) : Nat := (a * x + b) % 2 ^ m

/-- A successful `CONSTRUCT.LCG` latches its operands and sets the state; the latches of the other
kind stay (40_lcg_engine.md R124, 10_state.md R28). -/
def State.latchLcg (s : State) : State :=
  { s with
    gKind := .lcg
    gA := s.opA
    gB := s.opB
    gM := s.opM
    gSeed := s.opSeed
    x := s.opSeed
    gValid := true }

/-- `CONSTRUCT.LCG` (40_lcg_engine.md R124). -/
def execConstructLcg (s : State) : Host.Outcome State Fault Refusal :=
  let entered := s.clearError.dropGenerator
  match entered.lcgError with
  | some e => .next (entered.raise e)
  | none => .next entered.latchLcg

end Sys2Proof.Machine
end

