-- ==== Sys2Proof/Machine/Lfsr.lean ====
section
/-! DEFINITION. The LFSR engine: `Feedback`, `LFSR.STEP` and `CONSTRUCT.LFSR` (41_lfsr_engine.md). -/

namespace Sys2Proof.Machine

/-- The element at sequence index `j` of a register of length `len` held in `x`: bit `len - 1 - j`
(00_scope.md R8, 41_lfsr_engine.md R140). -/
def seqBit (len : Nat) (x : Nat) (j : Nat) : Bool := x.testBit (len - 1 - j)

/-- The exclusive-or of the tapped bits among sequence indices `0 .. n-1` (41_lfsr_engine.md R142,
the loop after `n` of its rounds). -/
def feedbackUpTo (taps : Nat) (len : Nat) (x : Nat) (n : Nat) : Bool :=
  match n with
  | 0 => false
  | j + 1 =>
    if taps.testBit j then (feedbackUpTo taps len x j).xor (seqBit len x j)
    else feedbackUpTo taps len x j

/-- `Feedback()`: exclusive-or is the only combiner (41_lfsr_engine.md R142). -/
def feedback (taps : Nat) (len : Nat) (x : Nat) : Bool := feedbackUpTo taps len x len

/-- `LFSR.STEP` (41_lfsr_engine.md R143, R144): the feedback is taken from the register before the
shift, the oldest bit is dropped, and the whole register is emitted, undivided (R145, R146). -/
def lfsrNext (taps : Nat) (len : Nat) (x : Nat) : Nat :=
  ((x <<< 1) ||| (feedback taps len x).toNat) % 2 ^ len

/-- A successful `CONSTRUCT.LFSR` latches its operands and sets the state; the latches of the other
kind stay (41_lfsr_engine.md R147, 10_state.md R28). -/
def State.latchLfsr (s : State) : State :=
  { s with
    gKind := .lfsr
    gLen := s.opLen
    gTaps := s.opTaps
    gSeed := s.opSeed
    x := s.opSeed
    gValid := true }

/-- `CONSTRUCT.LFSR` (41_lfsr_engine.md R147). -/
def execConstructLfsr (s : State) : Host.Outcome State Fault Refusal :=
  let entered := s.clearError.dropGenerator
  match entered.lfsrError with
  | some e => .next (entered.raise e)
  | none => .next entered.latchLfsr

end Sys2Proof.Machine
end

