-- ==== Sys2Proof/Machine/Runner.lean ====
section
/-! DEFINITION. The sequence runner: engine dispatch, cycle detector, projection unit, loop and `RUN`
(42_sequence_runner.md). -/

namespace Sys2Proof.Machine

/-- `EngineStep()`: one step of the constructed generator from register contents `x`. The result is
both the new state and the raw value (00_scope.md R9; 40_lcg_engine.md R122; 41_lfsr_engine.md R145).
This is the only place a run reads `G_KIND` (42_sequence_runner.md R160). -/
def State.engineStep (s : State) (x : Nat) : Nat :=
  match s.gKind with
  | .lcg => lcgNext s.gA s.gB s.gM.toNat x
  | .lfsr => lfsrNext s.gTaps s.gLen.toNat x

/-- `Project(raw)`: the unsigned remainder by the modulus of the run, or `raw` itself when it has
none (42_sequence_runner.md R166). -/
def project (q : Option Nat) (raw : Nat) : Nat :=
  match q with
  | some q => raw % q
  | none => raw

/-- The working variables of one run (42_sequence_runner.md R164, R169), with the register and the
buffer that the run writes as it goes. They exist only inside the command (10_state.md R39). -/
structure RunVars where
  /-- `X`. -/
  x : Nat
  /-- `VISITED`, without repeats. -/
  visited : List Nat
  /-- `i`, the step index. -/
  i : Nat
  /-- `len`, how many values have been emitted. -/
  len : Nat
  /-- `pset`: whether a first repeat has been recorded. -/
  pset : Bool
  /-- `pre`: the recorded index. -/
  pre : Nat
  /-- `OUT`. -/
  out : OutBuffer
deriving DecidableEq, Repr

/-- The variables at the start of a run: the re-seed (42_sequence_runner.md R163) and the per-run
reset (R164). -/
def State.runStart (reseed : Bool) (s : State) : RunVars where
  x := if reseed then s.gSeed else s.x
  visited := []
  i := 0
  len := 0
  pset := false
  pre := 0
  out := s.out

/-- The engine step and the recording of the first repeat, and only the first
(42_sequence_runner.md R165): `raw` is tested before it is inserted. -/
def RunVars.detect (raw : Nat) (v : RunVars) : RunVars :=
  if histContains v.visited raw = true ∧ v.pset = false then
    { v with x := raw, pre := v.i, pset := true }
  else { v with x := raw }

/-- The rest of a round that does not end the run: insertion, projection and `OutAppend`
(42_sequence_runner.md R165, R166; 20_memory.md R65), and the next step index. -/
def RunVars.emit (q : Option Nat) (raw : Nat) (v : RunVars) : RunVars :=
  { v with
    visited := histInsert v.visited raw
    out := OutBuffer.write v.out v.len (project q raw)
    len := v.len + 1
    i := v.i + 1 }

/-- The loop of 42_sequence_runner.md R167 with `rounds` rounds of its budget left. It ends when none
is left (a), or at a repeat of a run with `stop = 1`, after the engine step and the recording and
before the insertion and the append (b). -/
def State.runLoop (stop : Bool) (q : Option Nat) (s : State) (rounds : Nat) (v : RunVars) : RunVars :=
  match rounds with
  | 0 => v
  | left + 1 =>
    let raw := s.engineStep v.x
    let seen := v.detect raw
    if histContains v.visited raw = true ∧ stop = true then seen
    else s.runLoop stop q left (seen.emit q raw)

/-- `pre` at the end of a run: the first repeat's index, or the number of values produced
(42_sequence_runner.md R168). -/
def RunVars.preperiod (v : RunVars) : Nat := if v.pset then v.pre else v.len

/-- The result commit: `X`, `OUT`, `RES_PREPERIOD`, `RES_LEN` and `RVALID` at the end of a successful
run (42_sequence_runner.md R169, R175). -/
def State.commitRun (v : RunVars) (s : State) : State :=
  { s with x := v.x, out := v.out, resPreperiod := v.preperiod, resLen := v.len, rValid := true }

/-- `RUN` (42_sequence_runner.md R169). -/
def execRun (stop moden reseed : Bool) (s : State) : Host.Outcome State Fault Refusal :=
  let entered := s.clearError.dropResult
  match entered.runError moden with
  | some e => .next (entered.raise e)
  | none =>
    .next (entered.commitRun
      (entered.runLoop stop (entered.modulusOf moden) entered.opN (entered.runStart reseed)))

end Sys2Proof.Machine
end

