-- ==== Sys2Proof/Machine/Dispatch.lean ====
section
/-! DEFINITION. The meaning of each command (43_host_access.md R192). -/

namespace Sys2Proof.Machine

def exec (i : Instr) (s : State) : Host.Outcome State Fault Refusal :=
  match i with
  | .constructLcg => Sys2Proof.Machine.execConstructLcg s
  | .constructLfsr => Sys2Proof.Machine.execConstructLfsr s
  | .run stop moden reseed => Sys2Proof.Machine.execRun stop moden reseed s

end Sys2Proof.Machine
end

