-- ==== Sys2Proof/Machine/HostAccess.lean ====
section
/-! DEFINITION. What the outside does to the block: host writes, host reads, command dispatch
(43_host_access.md) and the reset event (70_reset_and_hazards.md R240). -/

namespace Sys2Proof.Machine

/-- `Execute(c)` (43_host_access.md R192). An illegal word changes nothing but the error report
(60_exceptions.md R212). -/
def execute (c : CmdWord) (s : State) : Host.Outcome State Fault Refusal :=
  match decode c with
  | .illegal why => .next (s.raise (illegalCause why))
  | .instr i => exec i s

/-- `WR number, v` (43_host_access.md R190, R193). -/
def hostWrite (number v : Nat) (s : State) : Host.Outcome State Fault Refusal :=
  match Reg.ofNumber number with
  | none => .refused (.unassignedRegister number)
  | some r =>
    if v < 2 ^ r.width s.cfg then
      if r = .cmd then execute (BitVec.ofNat 32 v) s else .next (s.writeReg r v)
    else .refused (.valueTooWide number v)

/-- `RD number` (43_host_access.md R191, R193). -/
def hostRead (number : Nat) (s : State) : Host.Outcome State Fault Refusal :=
  match Reg.ofNumber number with
  | none => .refused (.unassignedRegister number)
  | some r => .next (s.logRead r)

/-- The reset event (70_reset_and_hazards.md R240, 10_state.md R41): the flags and the error report
are cleared; every operand register, latch and result register, `X` and `OUT_IDX` takes a free value
of its width, and every entry of `OUT` is unspecified again (log entry 5). What the outside has still
to do, and what it has read, are not the block's. -/
def State.resetEvent (s : State) : State where
  opA := s.free s.cfg.W 0
  opB := s.free s.cfg.W 1
  opM := BitVec.ofNat 16 (s.free 16 2)
  opLen := BitVec.ofNat 16 (s.free 16 3)
  opTaps := s.free s.cfg.W 4
  opSeed := s.free s.cfg.W 5
  opN := s.free s.cfg.cntW 6
  opModulus := s.free s.cfg.W 7
  outIdx := s.free s.cfg.cntW 8
  gKind := if s.free 1 9 = 0 then .lcg else .lfsr
  gA := s.free s.cfg.W 10
  gB := s.free s.cfg.W 11
  gM := BitVec.ofNat 16 (s.free 16 12)
  gLen := BitVec.ofNat 16 (s.free 16 13)
  gTaps := s.free s.cfg.W 14
  gSeed := s.free s.cfg.W 15
  x := s.free s.cfg.W 16
  gValid := false
  rValid := false
  errKind := 0
  errCause := 0
  resPreperiod := s.free s.cfg.cntW 17
  resLen := s.free s.cfg.cntW 18
  out := []
  cfg := s.cfg
  host := s.host
  readLog := s.readLog
  draws := s.draws + 19

/-- One thing the outside does, taken to its end (20_memory.md R70). -/
def hostEvent (e : HostEvent) (s : State) : Host.Outcome State Fault Refusal :=
  match e with
  | .wr n v => hostWrite n v s
  | .rd n => hostRead n s
  | .reset => .next s.resetEvent

/-- The host's list with the write of a command word in front of it: what makes the next step run
that command (log entry 7). -/
def commandFirst (nbits w : Nat) (host : List HostEvent) : List HostEvent :=
  .wr Reg.cmd.number (w % 2 ^ nbits) :: host

end Sys2Proof.Machine
end

