-- ==== Sys2Proof/Machine/Step.lean ====
section
/-! DEFINITION. One step of the machine. -/

namespace Sys2Proof.Machine

/-- One step: the block completes the next thing the outside does to it. With nothing to do it is
idle and holds all its state (10_state.md R20, 20_memory.md R70, 60_exceptions.md R219; log entry
7). -/
def step (s : State) : Host.Outcome State Fault Refusal :=
  match s.host with
  | [] => .next s
  | e :: rest => hostEvent e { s with host := rest }

/-- The state whose next step runs the command word `w`: the host's next access is the write of `w`
to `CMD` (log entry 7). -/
def State.withFetchWord (s : State) (nbits w : Nat) : State :=
  { s with host := commandFirst nbits w s.host }

end Sys2Proof.Machine
end

