-- ==== Sys2Proof/Machine/HostProgram.lean ====
section
/-! DEFINITION. The notation for host programs and the pseudo-operations (30_encoding.md R97, R98):
each is a list of what the host does. -/

namespace Sys2Proof.Machine

/-- `WR REG, v` (30_encoding.md R97). -/
def wrReg (r : Reg) (v : Nat) : HostEvent := .wr r.number v

/-- `RD REG` (30_encoding.md R97). -/
def rdReg (r : Reg) : HostEvent := .rd r.number

/-- A `CMD` line: the write of the command's word to `CMD` (30_encoding.md R97). -/
def cmdLine (i : Instr) : HostEvent := wrReg .cmd (encode i).toNat

/-- The mask `Σ 2^j` of a set of sequence indices (30_encoding.md R98, 10_state.md R25). -/
def tapMask (taps : List Nat) : Nat :=
  match taps with
  | [] => 0
  | j :: rest => 2 ^ j ||| tapMask rest

/-- The value `Σ bits[j] * 2^(L-1-j)` of a register written as its sequence of bits, the element of
index 0 first, where `L` is the length of the sequence (30_encoding.md R98, 00_scope.md R8). -/
def seedOfBits (bits : List Bool) : Nat :=
  match bits with
  | [] => 0
  | b :: rest => b.toNat * 2 ^ rest.length + seedOfBits rest

/-- `construct_generator(LCG, (a, b, m), seed)` (30_encoding.md R98). -/
def constructLcgProgram (a b m seed : Nat) : List HostEvent :=
  [wrReg .opA a, wrReg .opB b, wrReg .opM m, wrReg .opSeed seed, cmdLine .constructLcg]

/-- `construct_generator(LFSR, (L, taps), bits)` (30_encoding.md R98). The rule expands a call whose
`bits` are the `L` elements of the register, and gives no expansion for another length. Here the
weights of `bits` follow its own length and `OP_LEN` follows `len`, so a call with another length has
an expansion too (DESIGN CHOICE, unsafe for such a call: log entry 14). -/
def constructLfsrProgram (len : Nat) (taps : List Nat) (bits : List Bool) : List HostEvent :=
  [wrReg .opLen len, wrReg .opTaps (tapMask taps), wrReg .opSeed (seedOfBits bits),
    cmdLine .constructLfsr]

/-- `run(n, stop_on_repeat, modulus)`, with or without a re-seed (30_encoding.md R98). -/
def runProgram (n : Nat) (stop : Bool) (modulus : Option Nat) (reseed : Bool) : List HostEvent :=
  match modulus with
  | none => [wrReg .opN n, cmdLine (.run stop false reseed)]
  | some q => [wrReg .opN n, wrReg .opModulus q, cmdLine (.run stop true reseed)]

/-- The reads of the first `len` entries of `OUT`, in the order of their indices (30_encoding.md R98,
20_memory.md R66). -/
def readOutFrom (k len : Nat) : List HostEvent :=
  match len with
  | 0 => []
  | left + 1 => wrReg .outIdx k :: rdReg .outData :: readOutFrom (k + 1) left

/-- `read_result()`, for a host that has read `RES_LEN` to be `len` (30_encoding.md R98). -/
def readResultProgram (len : Nat) : List HostEvent :=
  [rdReg .status, rdReg .resPreperiod, rdReg .resLen] ++ readOutFrom 0 len

end Sys2Proof.Machine
end

