-- ==== Sys2Proof/Safety.lean ====
section
/-! DEFINITION. The terms claims use: the invariant of the state, safe runs, and the vocabulary of a
run's raw sequence (42_sequence_runner.md R168). -/

namespace Sys2Proof.Machine

/-- The report says no error, or one of the causes of 60_exceptions.md R205 with its kind. -/
abbrev State.ReportLegal (s : State) : Prop :=
  (s.errKind = 0#2 ∧ s.errCause = 0#4) ∨ ∃ e : ErrorCause, s.errKind = e.kind ∧ s.errCause = e.code

/-- The host-visible registers hold values of their widths (10_state.md R21). -/
abbrev State.RegistersFit (s : State) : Prop :=
  Fits s.cfg.W s.opA ∧ Fits s.cfg.W s.opB ∧ Fits s.cfg.W s.opTaps ∧ Fits s.cfg.W s.opSeed ∧
  Fits s.cfg.cntW s.opN ∧ Fits s.cfg.W s.opModulus ∧ Fits s.cfg.cntW s.outIdx ∧
  Fits s.cfg.cntW s.resPreperiod ∧ Fits s.cfg.cntW s.resLen

/-- The latches and `X` hold values of their widths (10_state.md R28, R29). -/
abbrev State.LatchesFit (s : State) : Prop :=
  Fits s.cfg.W s.gA ∧ Fits s.cfg.W s.gB ∧ Fits s.cfg.W s.gTaps ∧ Fits s.cfg.W s.gSeed ∧
  Fits s.cfg.W s.x

/-- The size in bits of the generator's state: `G_M` for an LCG, `G_LEN` for an LFSR (10_state.md
R29). -/
def State.stateBits (s : State) : Nat :=
  match s.gKind with
  | .lcg => s.gM.toNat
  | .lfsr => s.gLen.toNat

/-- What 10_state.md R28 and R29 say of an existing generator: its size is legal, its state and its
seed lie in range, and an LFSR taps no index outside its register. -/
abbrev State.GeneratorLegal (s : State) : Prop :=
  1 ≤ s.stateBits ∧ s.stateBits ≤ s.cfg.W ∧ s.x < 2 ^ s.stateBits ∧ s.gSeed < 2 ^ s.stateBits ∧
  (s.gKind = .lfsr → s.gTaps < 2 ^ s.gLen.toNat)

/-- What 10_state.md R32 and 20_memory.md R64 say of an existing result: its bounds, and that every
entry of it is in `OUT`. -/
abbrev State.ResultLegal (s : State) : Prop :=
  1 ≤ s.resPreperiod ∧ s.resPreperiod ≤ s.resLen ∧ s.resLen ≤ s.cfg.histDepth ∧
  ∀ k, k < s.resLen → (OutBuffer.read s.out k).isSome = true

/-- `OUT` is in canonical form, and its entries are `W`-bit values at indices below `HIST_DEPTH`
(20_memory.md R64). -/
abbrev State.OutLegal (s : State) : Prop :=
  OutBuffer.wf s.out = true ∧
  ∀ k v, OutBuffer.read s.out k = some v → k < s.cfg.histDepth ∧ Fits s.cfg.W v

/-- The invariant of the machine. -/
structure State.Inv (s : State) : Prop where
  cfgLegal : s.cfg.Legal
  registersFit : s.RegistersFit
  latchesFit : s.LatchesFit
  reportLegal : s.ReportLegal
  outLegal : s.OutLegal
  generatorLegal : s.gValid = true → s.GeneratorLegal
  resultLegal : s.rValid = true → s.ResultLegal

/-- Everything the outside has still to do has a meaning (43_host_access.md R190, R193). -/
def State.hostWf (s : State) : Bool := s.host.all (HostEvent.wf s.cfg)

/-- A run of `k` steps that neither faults nor is refused. -/
def State.SafeFor (k : Nat) (s : State) : Prop := ∃ t, Sys2Proof.core.run k s = .next t

/-- The raw value `e[k]` of step `k` of a run that starts from register contents `x0`
(42_sequence_runner.md R168): the engine stepped `k + 1` times. -/
def State.rawValue (s : State) (x0 : Nat) (k : Nat) : Nat :=
  match k with
  | 0 => s.engineStep x0
  | j + 1 => s.engineStep (s.rawValue x0 j)

/-- Step `p` of a run repeats a value of an earlier step: `e[p] ∈ {e[0], ..., e[p-1]}`
(42_sequence_runner.md R168). -/
def State.RepeatAt (s : State) (x0 : Nat) (p : Nat) : Prop :=
  ∃ j, j < p ∧ s.rawValue x0 j = s.rawValue x0 p

/-- `p` is the first step of a run that repeats a value (42_sequence_runner.md R168). -/
def State.FirstRepeat (s : State) (x0 : Nat) (p : Nat) : Prop :=
  s.RepeatAt x0 p ∧ ∀ j, j < p → ¬ s.RepeatAt x0 j

/-- Where a run starts: the latched seed with `reseed = 1`, the current state with `reseed = 0`
(42_sequence_runner.md R163). -/
def State.startOf (reseed : Bool) (s : State) : Nat := if reseed then s.gSeed else s.x

/-- The entry checks of `RUN` pass (42_sequence_runner.md R162). -/
abbrev State.RunReady (moden : Bool) (s : State) : Prop :=
  s.gValid = true ∧ 1 ≤ s.opN ∧ s.opN ≤ s.cfg.histDepth ∧ (moden = true → s.opModulus ≠ 0)

/-- No check of the command applies: the size, the tap indices and the seed of a CONSTRUCT are in range
(40_lcg_engine.md R124, 41_lfsr_engine.md R147), the entry checks of a `RUN` pass. -/
def State.ChecksPass (i : Instr) (s : State) : Prop :=
  match i with
  | .constructLcg =>
    1 ≤ s.opM.toNat ∧ s.opM.toNat ≤ s.cfg.W ∧ s.opSeed < 2 ^ s.opM.toNat
  | .constructLfsr =>
    1 ≤ s.opLen.toNat ∧ s.opLen.toNat ≤ s.cfg.W ∧ s.opTaps < 2 ^ s.opLen.toNat ∧
      s.opSeed < 2 ^ s.opLen.toNat
  | .run _ moden _ => s.RunReady moden

/-- The value a run emits for the raw value of step `k` (42_sequence_runner.md R166). -/
def State.emitted (s : State) (moden : Bool) (x0 : Nat) (k : Nat) : Nat :=
  if moden then s.rawValue x0 k % s.opModulus else s.rawValue x0 k

/-- `OUT` after a run that emitted `len` values: entry `k < len` holds the `k`-th emitted value and
every other entry is what it was (20_memory.md R64). -/
abbrev State.OutHoldsRun (s : State) (moden : Bool) (x0 : Nat) (len : Nat) (out : OutBuffer) : Prop :=
  (∀ k, k < len → OutBuffer.read out k = some (s.emitted moden x0 k)) ∧
  ∀ k, len ≤ k → OutBuffer.read out k = OutBuffer.read s.out k

/-- The parity, as 0 or 1, of the number of bits set in the low `n` bits of `v`. -/
def parityOf (n : Nat) (v : Nat) : Nat :=
  ((Finset.range n).filter fun k => v.testBit k = true).card % 2

/-- `T'`: the tap mask reversed within `len` bits (41_lfsr_engine.md R141). -/
def reversedTaps (taps : Nat) (len : Nat) : Nat :=
  ∑ j ∈ Finset.range len, if taps.testBit j then 2 ^ (len - 1 - j) else 0

/-- The latched configuration of two states is the same (10_state.md R28). -/
abbrev State.SameConfiguration (s t : State) : Prop :=
  t.gKind = s.gKind ∧ t.gA = s.gA ∧ t.gB = s.gB ∧ t.gM = s.gM ∧ t.gLen = s.gLen ∧
  t.gTaps = s.gTaps ∧ t.gSeed = s.gSeed

/-- What commands never write: the operand registers and `OUT_IDX` (10_state.md R22, R33), the build,
and the host's own lists. -/
abbrev State.SameHostSide (s t : State) : Prop :=
  t.opA = s.opA ∧ t.opB = s.opB ∧ t.opM = s.opM ∧ t.opLen = s.opLen ∧ t.opTaps = s.opTaps ∧
  t.opSeed = s.opSeed ∧ t.opN = s.opN ∧ t.opModulus = s.opModulus ∧ t.outIdx = s.outIdx ∧
  t.cfg = s.cfg ∧ t.host = s.host ∧ t.readLog = s.readLog ∧ t.draws = s.draws

end Sys2Proof.Machine
end

