-- ==== Sys2Proof/Certificates/Slice0/Obligations.lean ====
section
/-! DEFINITION. The statements for the provers. Each docstring names the rules of spec/ it rests on.
A free value (log entries 4, 5 and 6) is never given a value here. -/

open Sys2Proof Sys2Proof.Machine

/-! ### Encoding and decoding (30_encoding.md) -/

/-- Words of 95_test_vectors.md section 2.8, written out from the format tables of 30_encoding.md
R90. -/
def Obligations.DecodeOfWordsWrittenOut : Prop :=
  decode 0x00000001#32 = .instr .constructLcg ∧
  decode 0x00000101#32 = .instr .constructLfsr ∧
  decode 0x00000002#32 = .instr (.run false false false) ∧
  decode 0x00000302#32 = .instr (.run true true false) ∧
  decode 0x00000402#32 = .instr (.run false false true) ∧
  decode 0x00000000#32 = .illegal .opcode ∧
  decode 0x00000100#32 = .illegal .opcode ∧
  decode 0x00000201#32 = .illegal .reserved ∧
  decode 0x00000802#32 = .illegal .reserved

/-- 30_encoding.md R94: a word is a row's command iff `c & mask = match`, with the flags of `RUN` at
bits 8, 9 and 10. -/
def Obligations.DecodeFollowsMatchAndMask : Prop :=
  ∀ c : CmdWord,
    (decode c = .instr .constructLcg ↔ c &&& 0xFFFFFFFF#32 = 0x00000001#32) ∧
    (decode c = .instr .constructLfsr ↔ c &&& 0xFFFFFFFF#32 = 0x00000101#32) ∧
    ∀ stop moden reseed, decode c = .instr (.run stop moden reseed) ↔
      c &&& 0xFFFFF8FF#32 = 0x00000002#32 ∧
        c.getLsbD 8 = stop ∧ c.getLsbD 9 = moden ∧ c.getLsbD 10 = reseed

/-- Decode and encode agree in both directions, for every word and every command: decoding an
encoded command gives it back, and the only word that decodes to a command is its encoding
(30_encoding.md R90, R94, R99). -/
def Obligations.DecodeIsInverseOfEncode : Prop :=
  ∀ (c : CmdWord) (i : Instr), i.wf = true → (decode c = .instr i ↔ c = encode i)

/-- 30_encoding.md R95: which words are illegal, with which cause, and that an illegal word changes
nothing but the error report; a legal `RUN` word refused for want of a generator also clears
`RVALID`. -/
def Obligations.IllegalWordsChangeOnlyTheReport : Prop :=
  ∀ (s : State) (c : CmdWord) (rest : List HostEvent), s.host = .wr 0 c.toNat :: rest →
    (opc c ≠ 0x1#4 → opc c ≠ 0x2#4 →
      step s = .next { s with host := rest, errKind := 3#2, errCause := 1#4 }) ∧
    (opc c = 0x1#4 → (∃ k, ((4 ≤ k ∧ k ≤ 7) ∨ (9 ≤ k ∧ k ≤ 31)) ∧ c.getLsbD k = true) →
      step s = .next { s with host := rest, errKind := 3#2, errCause := 2#4 }) ∧
    (opc c = 0x2#4 → (∃ k, ((4 ≤ k ∧ k ≤ 7) ∨ (11 ≤ k ∧ k ≤ 31)) ∧ c.getLsbD k = true) →
      step s = .next { s with host := rest, errKind := 3#2, errCause := 2#4 }) ∧
    ((∃ stop moden reseed, decode c = .instr (.run stop moden reseed)) → s.gValid = false →
      step s = .next { s with host := rest, rValid := false, errKind := 3#2, errCause := 3#4 })

/-! ### The step (43_host_access.md, 20_memory.md R70) -/

/-- A step whose next access writes a legal word to `CMD` is that command, run on the state with the
access taken off the host's list; and with nothing to do the block holds its state
(43_host_access.md R192, 10_state.md R20). -/
def Obligations.StepRunsTheDecodedCommand : Prop :=
  (∀ (s : State) (c : CmdWord) (rest : List HostEvent) (i : Instr),
    s.host = .wr 0 c.toNat :: rest → decode c = .instr i → step s = exec i { s with host := rest }) ∧
  (∀ (s : State) (w : Nat) (i : Instr), w < 2 ^ 32 → decode (BitVec.ofNat 32 w) = .instr i →
    step (s.withFetchWord 32 w) = exec i s) ∧
  ∀ s : State, s.host = [] → step s = .next s

/-- Every command ends in a next state, from every state (42_sequence_runner.md R176). -/
def Obligations.EveryCommandEnds : Prop :=
  ∀ (i : Instr) (s : State), ∃ t, exec i s = .next t

/-- A host whose accesses all have a meaning is never stopped, however long it goes on
(43_host_access.md R190 to R193, 60_exceptions.md R214). -/
def Obligations.WellFormedHostIsNeverStopped : Prop :=
  ∀ (k : Nat) (s : State), s.hostWf = true → s.SafeFor k

/-- No step changes the build (10_state.md R40, 00_scope.md R6). -/
def Obligations.StepKeepsTheBuild : Prop :=
  ∀ s t : State, step s = .next t → t.cfg = s.cfg

/-! ### The invariant -/

/-- The invariant holds after reset, in every legal build, the reference build among them (10_state.md
R41). It rests on the model's choice of 0 for the registers R41 leaves unspecified (log entry 3). -/
def Obligations.ResetMeetsTheInvariant : Prop :=
  (∀ c : Config, c.Legal → (State.resetOf c).Inv) ∧ State.reset.Inv

/-- Every step keeps the invariant: values of their widths, a legal report, `OUT` in canonical form
and within `HIST_DEPTH`, a legal generator while `GVALID = 1`, a legal result while `RVALID = 1`
(10_state.md R21, R28, R29, R32; 20_memory.md R64; 60_exceptions.md R205). -/
def Obligations.StepKeepsTheInvariant : Prop :=
  ∀ s t : State, s.Inv → step s = .next t → t.Inv

/-! ### The LCG (40_lcg_engine.md) -/

/-- The engine of an LCG computes the exact `(a*x + b) mod 2^m` and keeps `X` below `2^m`
(40_lcg_engine.md R121, R122). -/
def Obligations.LcgStepIsTheRecurrence : Prop :=
  ∀ (s : State) (x : Nat), s.gKind = .lcg →
    s.engineStep x = (s.gA * x + s.gB) % 2 ^ s.gM.toNat ∧ s.engineStep x < 2 ^ s.gM.toNat

/-- A `W`-bit wrapping multiplier and adder followed by a mask of `m <= W` bits compute the same, and
`a`, `b` may be reduced modulo `2^m` (40_lcg_engine.md R123). -/
def Obligations.LcgWrappingDataPathAgrees : Prop :=
  ∀ (W m : Nat) (a b x : Nat), m ≤ W →
    lcgNext a b m x = ((a * x) % 2 ^ W + b) % 2 ^ W % 2 ^ m ∧
    lcgNext (a % 2 ^ m) (b % 2 ^ m) m x = lcgNext a b m x

/-- Corner cases of `LCG.STEP` (40_lcg_engine.md R125). -/
def Obligations.LcgCornerCases : Prop :=
  ∀ (a b x : Nat) (m : Nat),
    lcgNext 0 b m x = b % 2 ^ m ∧
    (x < 2 ^ m → lcgNext 1 0 m x = x) ∧
    lcgNext a 0 m 0 = 0 ∧
    lcgNext a b 1 x = (((a.testBit 0 && x.testBit 0).xor (b.testBit 0)).toNat)

/-- `CONSTRUCT.LCG` (40_lcg_engine.md R124; order of checks: 60_exceptions.md R210): the word, the
effect of a success, and each error, in its order, with everything it leaves. -/
def Obligations.ConstructLcgMeaning : Prop :=
  decode 0x00000001#32 = .instr .constructLcg ∧
  ∀ s : State,
    (s.opM ≠ 0#16 → s.opM.toNat ≤ s.cfg.W → s.opSeed < 2 ^ s.opM.toNat →
      exec .constructLcg s = .next { s with
        errKind := 0#2, errCause := 0#4, gValid := true, gKind := .lcg,
        gA := s.opA, gB := s.opB, gM := s.opM, gSeed := s.opSeed, x := s.opSeed }) ∧
    (s.opM = 0#16 →
      exec .constructLcg s = .next { s with errKind := 1#2, errCause := 1#4, gValid := false }) ∧
    (s.opM ≠ 0#16 → s.cfg.W < s.opM.toNat →
      exec .constructLcg s = .next { s with errKind := 1#2, errCause := 2#4, gValid := false }) ∧
    (s.opM ≠ 0#16 → s.opM.toNat ≤ s.cfg.W → 2 ^ s.opM.toNat ≤ s.opSeed →
      exec .constructLcg s = .next { s with errKind := 1#2, errCause := 6#4, gValid := false })

/-! ### The LFSR (41_lfsr_engine.md) -/

/-- The feedback is the parity of the tapped bits, taken by sequence index; it is the parity of
`X & T'`; with no tap it is 0 (41_lfsr_engine.md R141, R142). -/
def Obligations.FeedbackIsParityOfTappedBits : Prop :=
  ∀ (taps x : Nat) (len : Nat),
    (feedback taps len x).toNat =
      ((Finset.range len).filter fun j => taps.testBit j = true ∧ x.testBit (len - 1 - j) = true).card % 2 ∧
    (feedback taps len x).toNat = parityOf len (x &&& reversedTaps taps len) ∧
    feedback 0 len x = false

/-- 41_lfsr_engine.md R143, element by element and as an integer. -/
def Obligations.LfsrShiftBySequenceIndex : Prop :=
  ∀ (taps x : Nat) (len : Nat), 1 ≤ len →
    (∀ j, j + 1 < len → seqBit len (lfsrNext taps len x) j = seqBit len x (j + 1)) ∧
    seqBit len (lfsrNext taps len x) (len - 1) = feedback taps len x ∧
    lfsrNext taps len x = ((x <<< 1) ||| (feedback taps len x).toNat) % 2 ^ len ∧
    lfsrNext taps len x < 2 ^ len

/-- The oldest bit: if index 0 is not tapped, two registers that differ only there have the same
successor; if it is tapped, the step is injective on the registers of length `len`
(41_lfsr_engine.md R148). -/
def Obligations.LfsrOldestBitDecidesInjectivity : Prop :=
  ∀ (taps x y : Nat) (len : Nat),
    (taps.testBit 0 = false → (∀ j, 1 ≤ j → j < len → seqBit len x j = seqBit len y j) →
      lfsrNext taps len x = lfsrNext taps len y) ∧
    (taps.testBit 0 = true → x < 2 ^ len → y < 2 ^ len →
      lfsrNext taps len x = lfsrNext taps len y → x = y)

/-- With index 0 tapped every sequence is purely periodic: the first repeat is of the first emitted
value (41_lfsr_engine.md R148). -/
def Obligations.LfsrWithOldestBitTappedIsPurelyPeriodic : Prop :=
  ∀ (s : State) (x0 : Nat) (p : Nat), s.gKind = .lfsr → s.gTaps.testBit 0 = true →
    x0 < 2 ^ s.gLen.toNat → s.FirstRepeat x0 p → s.rawValue x0 p = s.rawValue x0 0

/-- Corner cases of `LFSR.STEP` (41_lfsr_engine.md R148): the zero register is a fixed point, no taps
shift zeros in, and a register of one bit either clears or feeds itself. -/
def Obligations.LfsrCornerCases : Prop :=
  ∀ (taps x : Nat) (len : Nat),
    lfsrNext taps len 0 = 0 ∧
    lfsrNext 0 len x = (2 * x) % 2 ^ len ∧
    lfsrNext 0 1 x = 0 ∧
    (x < 2 → lfsrNext 1 1 x = x)

/-- `CONSTRUCT.LFSR` (41_lfsr_engine.md R147; order of checks: 60_exceptions.md R210): the word, the
effect of a success, and each error, in its order, with everything it leaves. -/
def Obligations.ConstructLfsrMeaning : Prop :=
  decode 0x00000101#32 = .instr .constructLfsr ∧
  ∀ s : State,
    (s.opLen ≠ 0#16 → s.opLen.toNat ≤ s.cfg.W → s.opTaps >>> s.opLen.toNat = 0 →
      s.opSeed >>> s.opLen.toNat = 0 →
      exec .constructLfsr s = .next { s with
        errKind := 0#2, errCause := 0#4, gValid := true, gKind := .lfsr,
        gLen := s.opLen, gTaps := s.opTaps, gSeed := s.opSeed, x := s.opSeed }) ∧
    (s.opLen = 0#16 →
      exec .constructLfsr s = .next { s with errKind := 1#2, errCause := 3#4, gValid := false }) ∧
    (s.opLen ≠ 0#16 → s.cfg.W < s.opLen.toNat →
      exec .constructLfsr s = .next { s with errKind := 1#2, errCause := 4#4, gValid := false }) ∧
    (s.opLen ≠ 0#16 → s.opLen.toNat ≤ s.cfg.W → s.opTaps >>> s.opLen.toNat ≠ 0 →
      exec .constructLfsr s = .next { s with errKind := 1#2, errCause := 5#4, gValid := false }) ∧
    (s.opLen ≠ 0#16 → s.opLen.toNat ≤ s.cfg.W → s.opTaps >>> s.opLen.toNat = 0 →
      s.opSeed >>> s.opLen.toNat ≠ 0 →
      exec .constructLfsr s = .next { s with errKind := 1#2, errCause := 6#4, gValid := false })

/-- The range checks of `CONSTRUCT.LFSR` by index and by bound: for a legal length, `CE_TAP_RANGE` is
raised iff some tapped index lies outside the register, and without it `CE_SEED_RANGE` iff the seed
does not fit it (10_state.md R25, R26; 60_exceptions.md R205). With `L = W` neither can be. -/
def Obligations.LfsrRangeChecksAreByIndex : Prop :=
  ∀ s t : State, 1 ≤ s.opLen.toNat → s.opLen.toNat ≤ s.cfg.W → exec .constructLfsr s = .next t →
    ((t.errKind = 1#2 ∧ t.errCause = 5#4) ↔ ∃ j, s.opLen.toNat ≤ j ∧ s.opTaps.testBit j = true) ∧
    ((∀ j, s.opTaps.testBit j = true → j < s.opLen.toNat) →
      ((t.errKind = 1#2 ∧ t.errCause = 6#4) ↔ 2 ^ s.opLen.toNat ≤ s.opSeed)) ∧
    (s.opLen.toNat = s.cfg.W → s.RegistersFit → t.errKind = 0#2)

/-! ### RUN (42_sequence_runner.md) -/

/-- The entry checks of `RUN`, in their order, each with everything it leaves; and a run that passes
them succeeds (42_sequence_runner.md R162). -/
def Obligations.RunEntryChecksInOrder : Prop :=
  ∀ (s : State) (stop moden reseed : Bool),
    (s.gValid = false →
      exec (.run stop moden reseed) s =
        .next { s with errKind := 3#2, errCause := 3#4, rValid := false }) ∧
    (s.gValid = true → s.opN = 0 →
      exec (.run stop moden reseed) s =
        .next { s with errKind := 2#2, errCause := 1#4, rValid := false }) ∧
    (s.gValid = true → s.cfg.histDepth < s.opN →
      s.opN ≠ 0 → exec (.run stop moden reseed) s =
        .next { s with errKind := 2#2, errCause := 2#4, rValid := false }) ∧
    (s.gValid = true → s.opN ≠ 0 → s.opN ≤ s.cfg.histDepth → moden = true → s.opModulus = 0 →
      exec (.run stop moden reseed) s =
        .next { s with errKind := 2#2, errCause := 3#4, rValid := false }) ∧
    (s.RunReady moden → ∃ t, exec (.run stop moden reseed) s = .next t ∧
      t.errKind = 0#2 ∧ t.errCause = 0#4 ∧ t.rValid = true)

/-- `stop = 1` (42_sequence_runner.md R171): a repeat at `p < n` ends the run with `p` pairwise
distinct raw values emitted and `X` the repeated value, so that a later run with `reseed = 0` emits
`e[p+1]` first; with no repeat within the budget the run is that of `stop = 0`. -/
def Obligations.StoppingRunEndsAtFirstRepeat : Prop :=
  ∀ (s : State) (moden reseed : Bool), s.RunReady moden →
    (∀ p, p < s.opN → s.FirstRepeat (s.startOf reseed) p →
      (∃ out, exec (.run true moden reseed) s = .next { s with
          errKind := 0#2, errCause := 0#4, x := s.rawValue (s.startOf reseed) p, out := out,
          resPreperiod := p, resLen := p, rValid := true } ∧
        s.OutHoldsRun moden (s.startOf reseed) p out) ∧
      (∀ j k, j < k → k < p →
        s.rawValue (s.startOf reseed) j ≠ s.rawValue (s.startOf reseed) k) ∧
      ∀ t, exec (.run true moden reseed) s = .next t →
        t.rawValue (t.startOf false) 0 = s.rawValue (s.startOf reseed) (p + 1)) ∧
    ((∀ p, p < s.opN → ¬ s.RepeatAt (s.startOf reseed) p) →
      exec (.run true moden reseed) s = exec (.run false moden reseed) s ∧
      ∃ out, exec (.run true moden reseed) s = .next { s with
          errKind := 0#2, errCause := 0#4, x := s.rawValue (s.startOf reseed) (s.opN - 1), out := out,
          resPreperiod := s.opN, resLen := s.opN, rValid := true } ∧
        s.OutHoldsRun moden (s.startOf reseed) s.opN out)

/-- `stop = 0` (42_sequence_runner.md R170): exactly `n` values, repeats included; `RES_PREPERIOD` is
still the first repeat's index, the same as with `stop = 1`, whose output is the first
`RES_PREPERIOD` values of this one. -/
def Obligations.FullRunEmitsTheWholeBudget : Prop :=
  ∀ (s : State) (moden reseed : Bool), s.RunReady moden →
    ∃ out pre, exec (.run false moden reseed) s = .next { s with
        errKind := 0#2, errCause := 0#4, x := s.rawValue (s.startOf reseed) (s.opN - 1), out := out,
        resPreperiod := pre, resLen := s.opN, rValid := true } ∧
      s.OutHoldsRun moden (s.startOf reseed) s.opN out ∧
      (∀ p, p < s.opN → s.FirstRepeat (s.startOf reseed) p → pre = p) ∧
      ((∀ p, p < s.opN → ¬ s.RepeatAt (s.startOf reseed) p) → pre = s.opN) ∧
      ∃ t, exec (.run true moden reseed) s = .next t ∧ t.resPreperiod = pre ∧ t.resLen = pre ∧
        ∀ k, k < pre → OutBuffer.read t.out k = OutBuffer.read out k

/-- The bounds of a successful run and the contents of its result (42_sequence_runner.md R172). -/
def Obligations.RunResultBounds : Prop :=
  ∀ (s t : State) (stop moden reseed : Bool), s.RunReady moden →
    exec (.run stop moden reseed) s = .next t →
    1 ≤ t.resLen ∧ t.resLen ≤ s.opN ∧ (stop = false → t.resLen = s.opN) ∧
    1 ≤ t.resPreperiod ∧ t.resPreperiod ≤ t.resLen ∧
    (t.resPreperiod = s.opN ↔ ∀ p, p < s.opN → ¬ s.RepeatAt (s.startOf reseed) p) ∧
    (∀ j k, j < k → k < t.resPreperiod →
      s.rawValue (s.startOf reseed) j ≠ s.rawValue (s.startOf reseed) k) ∧
    (∀ k, k < t.resLen → ∃ v, OutBuffer.read t.out k = some v ∧
      (moden = true → v = s.rawValue (s.startOf reseed) k % s.opModulus ∧ v < s.opModulus) ∧
      (moden = false → v = s.rawValue (s.startOf reseed) k)) ∧
    ∀ k, s.rawValue (s.startOf reseed) k < 2 ^ s.stateBits

/-- Projection is a display transform only: two runs that differ in `MODEN` and in the modulus leave
the same state but for `OUT` and the modulus itself (42_sequence_runner.md R166, R172). -/
def Obligations.ProjectionChangesOnlyOut : Prop :=
  ∀ (s t t' : State) (stop moden moden' reseed : Bool) (q : Nat),
    s.RunReady moden → ({ s with opModulus := q } : State).RunReady moden' →
    exec (.run stop moden reseed) s = .next t →
    exec (.run stop moden' reseed) { s with opModulus := q } = .next t' →
    t' = { t with opModulus := q, out := t'.out }

/-- A run with `RESEED = 1` depends on the generator, the budget and the modulus alone, not on the
state or the results that earlier commands left (42_sequence_runner.md R173, 70_reset_and_hazards.md
R245). -/
def Obligations.ReseededRunsAreIdentical : Prop :=
  ∀ (s s' t t' : State) (stop moden : Bool),
    s'.cfg = s.cfg → s.SameConfiguration s' → s'.gValid = s.gValid → s'.opN = s.opN →
    s'.opModulus = s.opModulus → s.RunReady moden →
    exec (.run stop moden true) s = .next t → exec (.run stop moden true) s' = .next t' →
    t'.resLen = t.resLen ∧ t'.resPreperiod = t.resPreperiod ∧ t'.x = t.x ∧
    t'.statusWord = t.statusWord ∧
    ∀ k, k < t.resLen → OutBuffer.read t'.out k = OutBuffer.read t.out k

/-- Repeating a `RUN` with `RESEED = 1` changes nothing at all (42_sequence_runner.md R173). The
premise is the canonical form of `OUT`, part of the invariant. -/
def Obligations.ReseededRunRepeatedChangesNothing : Prop :=
  ∀ (s t : State) (stop moden : Bool), OutBuffer.wf s.out = true →
    exec (.run stop moden true) s = .next t → exec (.run stop moden true) t = .next t

/-- A run with `RESEED = 0` goes on where the last one left the engine: after a full run at the value
after the last emitted one, after an early stop one step later than the emitted sequence suggests
(70_reset_and_hazards.md R245, R246). -/
def Obligations.RunContinuesFromWhereTheLastLeftOff : Prop :=
  ∀ (s t : State) (moden reseed : Bool), s.RunReady moden →
    (exec (.run false moden reseed) s = .next t →
      ∀ k, t.rawValue (t.startOf false) k = s.rawValue (s.startOf reseed) (s.opN + k)) ∧
    (∀ p, p < s.opN → s.FirstRepeat (s.startOf reseed) p →
      exec (.run true moden reseed) s = .next t →
      ∀ k, t.rawValue (t.startOf false) k = s.rawValue (s.startOf reseed) (p + 1 + k))

/-- The visited set of a run is exactly the set of the raw values emitted so far, without repeats; in
no round of a run that passes the entry checks does it or `OUT` hold more than `HIST_DEPTH` entries,
and no run commits more than `HIST_DEPTH` values (20_memory.md R61, R62, R63, R77; 42_sequence_runner.md
R162). -/
def Obligations.VisitedSetIsExactAndFits : Prop :=
  (∀ (s : State) (stop reseed : Bool) (q : Option Nat) (n : Nat),
    let v := s.runLoop stop q n (s.runStart reseed)
    v.visited.Nodup ∧ v.visited.length ≤ v.len ∧ v.len ≤ n ∧ v.i = v.len ∧
    (∀ w, w ∈ v.visited ↔ ∃ k, k < v.len ∧ s.rawValue (s.startOf reseed) k = w) ∧
    ∀ moden, s.RunReady moden → n ≤ s.opN →
      v.visited.length ≤ s.cfg.histDepth ∧ v.len ≤ s.cfg.histDepth) ∧
  ∀ (s t : State) (stop moden reseed : Bool), exec (.run stop moden reseed) s = .next t →
    t.rValid = true → t.resLen ≤ s.cfg.histDepth

/-- `RES_PREPERIOD` is the number of distinct raw values among those of the result; if the generator
repeats at all, it is the number of distinct values it ever produces from this start, every step
after the first repeat is a repeat, and the visited set of a run with `stop = 0` stops growing there
(42_sequence_runner.md R174). -/
def Obligations.PreperiodCountsDistinctValues : Prop :=
  ∀ (s t : State) (stop moden reseed : Bool), s.RunReady moden →
    exec (.run stop moden reseed) s = .next t →
    ((Finset.range t.resLen).image (s.rawValue (s.startOf reseed))).card = t.resPreperiod ∧
    ∀ p, s.FirstRepeat (s.startOf reseed) p →
      (p < s.opN → t.resPreperiod = p) ∧
      (∀ k, p ≤ k → s.RepeatAt (s.startOf reseed) k) ∧
      (∀ n, p ≤ n → ((Finset.range n).image (s.rawValue (s.startOf reseed))).card = p) ∧
      ∀ q n, p ≤ n → (s.runLoop false q n (s.runStart reseed)).visited =
        (s.runLoop false q p (s.runStart reseed)).visited

/-- A first repeat exists, and comes no later than the number of states of the generator
(42_sequence_runner.md R174: the orbit of a deterministic map on a finite set). -/
def Obligations.EverySequenceRepeats : Prop :=
  ∀ (s : State) (x0 : Nat), ∃ p, 1 ≤ p ∧ p ≤ 2 ^ s.stateBits ∧ s.FirstRepeat x0 p

/-! ### Errors and frames (60_exceptions.md, 10_state.md) -/

/-- 60_exceptions.md R211: the report describes the most recent `CMD` write and nothing older; a
successful command, one whose checks all pass, leaves it 0, and any other leaves the code of an
error. -/
def Obligations.EveryCommandClearsTheReport : Prop :=
  (∀ (s : State) (c : CmdWord) (k : BitVec 2) (e : BitVec 4),
    execute c { s with errKind := k, errCause := e } = execute c s) ∧
  ∀ (i : Instr) (s t : State), exec i s = .next t →
    (s.ChecksPass i → t.errKind = 0#2 ∧ t.errCause = 0#4) ∧
    (¬ s.ChecksPass i →
      ∃ e : ErrorCause, t.errKind = e.kind ∧ t.errCause = e.code ∧ t.errKind ≠ 0#2)

/-- 60_exceptions.md R212: the complete effect of a failed command, by command. -/
def Obligations.FailedCommandLeavesEverythingElse : Prop :=
  (∀ (s : State) (c : CmdWord) (why : IllegalWord), decode c = .illegal why →
    execute c s = .next { s with errKind := 3#2, errCause := (illegalCause why).code }) ∧
  ∀ (i : Instr) (s t : State), exec i s = .next t → t.errKind ≠ 0#2 →
    (∃ e : ErrorCause, t.errKind = e.kind ∧ t.errCause = e.code) ∧
    (i = .constructLcg ∨ i = .constructLfsr →
      t = { s with errKind := t.errKind, errCause := t.errCause, gValid := false }) ∧
    ((∃ stop moden reseed, i = .run stop moden reseed) →
      t = { s with errKind := t.errKind, errCause := t.errCause, rValid := false })

/-- Which command raises which kind: `ConfigurationError` only a CONSTRUCT, `InvalidArgument` only a
RUN, and of decoded commands `IllegalCommand` only a RUN without a generator (60_exceptions.md R201,
R202, R203). -/
def Obligations.ErrorKindsByCommand : Prop :=
  ∀ (i : Instr) (s t : State), exec i s = .next t →
    (t.errKind = 1#2 → i = .constructLcg ∨ i = .constructLfsr) ∧
    (t.errKind = 2#2 → (∃ stop moden reseed, i = .run stop moden reseed) ∧ s.gValid = true) ∧
    (t.errKind = 3#2 → (∃ stop moden reseed, i = .run stop moden reseed) ∧ s.gValid = false)

/-- The frame of `CONSTRUCT.LCG` and `CONSTRUCT.LFSR` on every path: no operand register, no result
register, no entry of `OUT`, not `RVALID`, and no latch of the other kind (40_lcg_engine.md R124,
41_lfsr_engine.md R147, 10_state.md R22, R28). -/
def Obligations.ConstructFrame : Prop :=
  ∀ (i : Instr) (s t : State), i = .constructLcg ∨ i = .constructLfsr → exec i s = .next t →
    s.SameHostSide t ∧ t.rValid = s.rValid ∧ t.resPreperiod = s.resPreperiod ∧ t.resLen = s.resLen ∧
    (∀ k, OutBuffer.read t.out k = OutBuffer.read s.out k) ∧
    (i = .constructLcg → t.gLen = s.gLen ∧ t.gTaps = s.gTaps) ∧
    (i = .constructLfsr → t.gA = s.gA ∧ t.gB = s.gB ∧ t.gM = s.gM) ∧
    (t.errKind ≠ 0#2 → s.SameConfiguration t ∧ t.x = s.x)

/-- The frame of `RUN` on every path: no operand register, no latch, not `GVALID`, and of `OUT` only
the entries it emits, which are those below the new `RES_LEN` when it succeeds and none when it fails
(42_sequence_runner.md R169, 10_state.md R22, R30; 20_memory.md R64). -/
def Obligations.RunFrame : Prop :=
  ∀ (s t : State) (stop moden reseed : Bool), exec (.run stop moden reseed) s = .next t →
    s.SameHostSide t ∧ s.SameConfiguration t ∧ t.gValid = s.gValid ∧
    (t.rValid = true → ∀ k, t.resLen ≤ k → OutBuffer.read t.out k = OutBuffer.read s.out k) ∧
    (t.rValid = false → t.x = s.x ∧ t.resPreperiod = s.resPreperiod ∧ t.resLen = s.resLen ∧
      ∀ k, OutBuffer.read t.out k = OutBuffer.read s.out k)

/-- 10_state.md R30: only a CONSTRUCT word written to `CMD` (or a reset) changes the configuration. -/
def Obligations.ConfigurationIsImmutable : Prop :=
  ∀ (s t : State) (rest : List HostEvent) (e : HostEvent), s.host = e :: rest → e ≠ .reset →
    e ≠ .wr 0 0x00000001 → e ≠ .wr 0 0x00000101 → step s = .next t → s.SameConfiguration t

/-- 30_encoding.md R93: a register that a command does not read may hold any value without affecting
the command. -/
def Obligations.CommandsReadOnlyTheirOperands : Prop :=
  ∀ (s t : State) (a b : Nat) (m l : Size) (taps seed q : Nat) (n : Nat),
    (exec .constructLcg s = .next t →
      exec .constructLcg { s with opLen := l, opTaps := taps, opN := n, opModulus := q } =
        .next { t with opLen := l, opTaps := taps, opN := n, opModulus := q }) ∧
    (exec .constructLfsr s = .next t →
      exec .constructLfsr { s with opA := a, opB := b, opM := m, opN := n, opModulus := q } =
        .next { t with opA := a, opB := b, opM := m, opN := n, opModulus := q }) ∧
    (∀ stop reseed, exec (.run stop false reseed) s = .next t →
      exec (.run stop false reseed) { s with
          opA := a, opB := b, opM := m, opLen := l, opTaps := taps, opSeed := seed, opModulus := q } =
        .next { t with
          opA := a, opB := b, opM := m, opLen := l, opTaps := taps, opSeed := seed, opModulus := q }) ∧
    (∀ stop reseed, exec (.run stop true reseed) s = .next t →
      exec (.run stop true reseed) { s with
          opA := a, opB := b, opM := m, opLen := l, opTaps := taps, opSeed := seed } =
        .next { t with
          opA := a, opB := b, opM := m, opLen := l, opTaps := taps, opSeed := seed })

/-- A failed CONSTRUCT destroys the generator, so every `RUN` after it fails with `IC_NOGEN`; a
successful one keeps an earlier result readable (70_reset_and_hazards.md R250). -/
def Obligations.RunAfterFailedConstructIsRefused : Prop :=
  ∀ (i : Instr) (s t : State), i = .constructLcg ∨ i = .constructLfsr → exec i s = .next t →
    (t.errKind ≠ 0#2 → ∀ stop moden reseed, exec (.run stop moden reseed) t =
      .next { t with errKind := 3#2, errCause := 3#4, rValid := false }) ∧
    (t.errKind = 0#2 → t.gValid = true ∧ t.rValid = s.rValid ∧
      t.resPreperiod = s.resPreperiod ∧ t.resLen = s.resLen ∧
      ∀ k, OutBuffer.read t.out k = OutBuffer.read s.out k)

/-! ### Host accesses (43_host_access.md) and reset -/

/-- 43_host_access.md R190: what a host write does, register by register. -/
def Obligations.HostWriteByRegister : Prop :=
  ∀ (s : State) (rest : List HostEvent) (n v : Nat), s.host = .wr n v :: rest →
    (n = 0x00 → v < 2 ^ 32 → step s = execute (BitVec.ofNat 32 v) { s with host := rest }) ∧
    (n = 0x02 → v < 2 ^ s.cfg.W → step s = .next { s with host := rest, opA := v }) ∧
    (n = 0x03 → v < 2 ^ s.cfg.W → step s = .next { s with host := rest, opB := v }) ∧
    (n = 0x04 → v < 2 ^ 16 → step s = .next { s with host := rest, opM := BitVec.ofNat 16 v }) ∧
    (n = 0x05 → v < 2 ^ 16 → step s = .next { s with host := rest, opLen := BitVec.ofNat 16 v }) ∧
    (n = 0x06 → v < 2 ^ s.cfg.W → step s = .next { s with host := rest, opTaps := v }) ∧
    (n = 0x07 → v < 2 ^ s.cfg.W → step s = .next { s with host := rest, opSeed := v }) ∧
    (n = 0x08 → v < 2 ^ s.cfg.cntW → step s = .next { s with host := rest, opN := v }) ∧
    (n = 0x09 → v < 2 ^ s.cfg.W → step s = .next { s with host := rest, opModulus := v }) ∧
    (n = 0x0C → v < 2 ^ s.cfg.cntW → step s = .next { s with host := rest, outIdx := v }) ∧
    (n = 0x01 → v < 2 ^ 32 → step s = .next { s with host := rest }) ∧
    (n = 0x0A ∨ n = 0x0B → v < 2 ^ s.cfg.cntW → step s = .next { s with host := rest }) ∧
    (n = 0x0D ∨ n = 0x0E → v < 2 ^ s.cfg.W → step s = .next { s with host := rest }) ∧
    (0x0F ≤ n → step s = .refused (.unassignedRegister n))

/-- 43_host_access.md R191: what a host read returns, register by register, and that it changes no
register, latch or memory. Outside a result `OUT_DATA` returns some `W`-bit value, of which nothing
more is said. -/
def Obligations.HostReadByRegister : Prop :=
  ∀ (s : State) (rest : List HostEvent) (n : Nat), s.host = .rd n :: rest →
    (0x0F ≤ n → step s = .refused (.unassignedRegister n)) ∧
    (n < 0x0F → ∃ (t : State) (v : Nat), step s = .next t ∧
      t = { s with host := rest, readLog := v :: s.readLog } ∧
      (n = 0x00 → v = 0) ∧
      (n = 0x01 → v = s.gValid.toNat + 2 * (if s.gValid = true ∧ s.gKind = .lfsr then 1 else 0)
        + 4 * s.rValid.toNat + 256 * s.errKind.toNat + 4096 * s.errCause.toNat) ∧
      (n = 0x02 → v = s.opA) ∧ (n = 0x03 → v = s.opB) ∧ (n = 0x04 → v = s.opM.toNat) ∧
      (n = 0x05 → v = s.opLen.toNat) ∧ (n = 0x06 → v = s.opTaps) ∧ (n = 0x07 → v = s.opSeed) ∧
      (n = 0x08 → v = s.opN) ∧ (n = 0x09 → v = s.opModulus) ∧ (n = 0x0A → v = s.resPreperiod) ∧
      (n = 0x0B → v = s.resLen) ∧ (n = 0x0C → v = s.outIdx) ∧
      (n = 0x0D → s.rValid = true → s.outIdx < s.resLen →
        ∀ w, OutBuffer.read s.out s.outIdx = some w → v = w) ∧
      (n = 0x0D → s.rValid = false ∨ s.resLen ≤ s.outIdx → v < 2 ^ s.cfg.W) ∧
      (n = 0x0E → v = s.x))

/-- 43_host_access.md R193: an access to an unassigned register number has no meaning and the model
refuses it, a read as well as a write. -/
def Obligations.UnassignedRegistersAreRefused : Prop :=
  ∀ (s : State) (rest : List HostEvent) (n v : Nat), 0x0F ≤ n →
    (s.host = .rd n :: rest → step s = .refused (.unassignedRegister n)) ∧
    (s.host = .wr n v :: rest → step s = .refused (.unassignedRegister n))

/-- `STATUS` field by field (10_state.md R35): the flags, the two error fields, and the reserved bits,
which read 0. -/
def Obligations.StatusFieldsAndReservedBits : Prop :=
  ∀ s : State,
    s.statusWord.getLsbD 0 = s.gValid ∧
    s.statusWord.getLsbD 1 = (s.gValid && decide (s.gKind = .lfsr)) ∧
    s.statusWord.getLsbD 2 = s.rValid ∧
    s.statusWord.extractLsb' 8 2 = s.errKind ∧
    s.statusWord.extractLsb' 12 4 = s.errCause ∧
    ∀ k, (3 ≤ k ∧ k ≤ 7) ∨ (10 ≤ k ∧ k ≤ 11) ∨ 16 ≤ k → s.statusWord.getLsbD k = false

/-- Reading the same register twice in a row returns the same value twice and changes nothing of the
block, for every register: `OUT_DATA` outside a result is included, and within one there is no
auto-increment (20_memory.md R69, 10_state.md R33). -/
def Obligations.ReadsAreIdempotent : Prop :=
  ∀ (s t u : State) (rest : List HostEvent) (n : Nat),
    s.host = .rd n :: .rd n :: rest → step s = .next t → step t = .next u →
    ∃ v, u = { s with host := rest, readLog := v :: v :: s.readLog }

/-- 10_state.md R41 and the reset event: no generator, no result, no error, `STATUS` and `CMD` read
0, and a run that follows starts with an empty visited set; of every other register nothing is said.
The build and the host's own lists stay. -/
def Obligations.ResetEventClearsFlagsAndReport : Prop :=
  ∀ (s : State) (rest : List HostEvent), s.host = .reset :: rest →
    ∃ t, step s = .next t ∧ t.gValid = false ∧ t.rValid = false ∧ t.errKind = 0#2 ∧
      t.errCause = 0#4 ∧ t.statusWord = 0#32 ∧ t.readReg .cmd = 0 ∧
      (∀ reseed, (t.runStart reseed).visited = []) ∧
      t.cfg = s.cfg ∧ t.host = rest ∧ t.readLog = s.readLog

/-- After a reset, whatever the registers hold, a `RUN` before any CONSTRUCT fails with `IC_NOGEN` and
produces nothing (70_reset_and_hazards.md R241); a CONSTRUCT of either kind with legal operands
succeeds. -/
def Obligations.FirstCommandsAfterReset : Prop :=
  ∀ (s t : State) (rest : List HostEvent), s.host = .reset :: rest → step s = .next t →
    (∀ stop moden reseed, exec (.run stop moden reseed) t =
      .next { t with errKind := 3#2, errCause := 3#4 }) ∧
    (∀ (m : Size) (seed : Nat), m ≠ 0#16 → m.toNat ≤ s.cfg.W → seed < 2 ^ m.toNat →
      ∃ u, exec .constructLcg { t with opM := m, opSeed := seed } = .next u ∧
        u.statusWord = 0x00000001#32 ∧ u.readReg .genState = seed) ∧
    (∀ (l : Size) (taps seed : Nat), l ≠ 0#16 → l.toNat ≤ s.cfg.W → taps < 2 ^ l.toNat →
      seed < 2 ^ l.toNat →
      ∃ u, exec .constructLfsr { t with opLen := l, opTaps := taps, opSeed := seed } = .next u ∧
        u.statusWord = 0x00000003#32 ∧ u.readReg .genState = seed)

/-- The values the pseudo-operations write: bit `j` of the tap mask is set iff index `j` is tapped,
and the register written as a sequence of bits holds element `j` at sequence index `j` (30_encoding.md
R98, 00_scope.md R8, 10_state.md R25, R26). -/
def Obligations.PseudoOperationOperands : Prop :=
  (∀ (taps : List Nat) (j : Nat), (tapMask taps).testBit j = true ↔ j ∈ taps) ∧
  ∀ (bits : List Bool) (j : Nat) (h : j < bits.length),
    seqBit bits.length (seedOfBits bits) j = bits[j] ∧ seedOfBits bits < 2 ^ bits.length
end

