-- ==== Sys2Proof/Laws/State.lean ====
section
/-! SUPPORT. One lemma for each field under each named update of the state, so that no proof unfolds
an update. -/

namespace Sys2Proof.Machine

variable (s : State)

/-! `clearError` clears the error report and nothing else (60_exceptions.md R211). -/

@[simp] theorem State.clearError_opA : (s.clearError).opA = s.opA := rfl
@[simp] theorem State.clearError_opB : (s.clearError).opB = s.opB := rfl
@[simp] theorem State.clearError_opM : (s.clearError).opM = s.opM := rfl
@[simp] theorem State.clearError_opLen : (s.clearError).opLen = s.opLen := rfl
@[simp] theorem State.clearError_opTaps : (s.clearError).opTaps = s.opTaps := rfl
@[simp] theorem State.clearError_opSeed : (s.clearError).opSeed = s.opSeed := rfl
@[simp] theorem State.clearError_opN : (s.clearError).opN = s.opN := rfl
@[simp] theorem State.clearError_opModulus : (s.clearError).opModulus = s.opModulus := rfl
@[simp] theorem State.clearError_outIdx : (s.clearError).outIdx = s.outIdx := rfl
@[simp] theorem State.clearError_gKind : (s.clearError).gKind = s.gKind := rfl
@[simp] theorem State.clearError_gA : (s.clearError).gA = s.gA := rfl
@[simp] theorem State.clearError_gB : (s.clearError).gB = s.gB := rfl
@[simp] theorem State.clearError_gM : (s.clearError).gM = s.gM := rfl
@[simp] theorem State.clearError_gLen : (s.clearError).gLen = s.gLen := rfl
@[simp] theorem State.clearError_gTaps : (s.clearError).gTaps = s.gTaps := rfl
@[simp] theorem State.clearError_gSeed : (s.clearError).gSeed = s.gSeed := rfl
@[simp] theorem State.clearError_x : (s.clearError).x = s.x := rfl
@[simp] theorem State.clearError_gValid : (s.clearError).gValid = s.gValid := rfl
@[simp] theorem State.clearError_rValid : (s.clearError).rValid = s.rValid := rfl
@[simp] theorem State.clearError_errKind : (s.clearError).errKind = 0 := rfl
@[simp] theorem State.clearError_errCause : (s.clearError).errCause = 0 := rfl
@[simp] theorem State.clearError_resPreperiod : (s.clearError).resPreperiod = s.resPreperiod := rfl
@[simp] theorem State.clearError_resLen : (s.clearError).resLen = s.resLen := rfl
@[simp] theorem State.clearError_out : (s.clearError).out = s.out := rfl
@[simp] theorem State.clearError_cfg : (s.clearError).cfg = s.cfg := rfl
@[simp] theorem State.clearError_host : (s.clearError).host = s.host := rfl
@[simp] theorem State.clearError_readLog : (s.clearError).readLog = s.readLog := rfl
@[simp] theorem State.clearError_draws : (s.clearError).draws = s.draws := rfl

/-! `raise` writes the error report and nothing else (60_exceptions.md R212). -/

@[simp] theorem State.raise_opA (e : ErrorCause) : (s.raise e).opA = s.opA := rfl
@[simp] theorem State.raise_opB (e : ErrorCause) : (s.raise e).opB = s.opB := rfl
@[simp] theorem State.raise_opM (e : ErrorCause) : (s.raise e).opM = s.opM := rfl
@[simp] theorem State.raise_opLen (e : ErrorCause) : (s.raise e).opLen = s.opLen := rfl
@[simp] theorem State.raise_opTaps (e : ErrorCause) : (s.raise e).opTaps = s.opTaps := rfl
@[simp] theorem State.raise_opSeed (e : ErrorCause) : (s.raise e).opSeed = s.opSeed := rfl
@[simp] theorem State.raise_opN (e : ErrorCause) : (s.raise e).opN = s.opN := rfl
@[simp] theorem State.raise_opModulus (e : ErrorCause) : (s.raise e).opModulus = s.opModulus := rfl
@[simp] theorem State.raise_outIdx (e : ErrorCause) : (s.raise e).outIdx = s.outIdx := rfl
@[simp] theorem State.raise_gKind (e : ErrorCause) : (s.raise e).gKind = s.gKind := rfl
@[simp] theorem State.raise_gA (e : ErrorCause) : (s.raise e).gA = s.gA := rfl
@[simp] theorem State.raise_gB (e : ErrorCause) : (s.raise e).gB = s.gB := rfl
@[simp] theorem State.raise_gM (e : ErrorCause) : (s.raise e).gM = s.gM := rfl
@[simp] theorem State.raise_gLen (e : ErrorCause) : (s.raise e).gLen = s.gLen := rfl
@[simp] theorem State.raise_gTaps (e : ErrorCause) : (s.raise e).gTaps = s.gTaps := rfl
@[simp] theorem State.raise_gSeed (e : ErrorCause) : (s.raise e).gSeed = s.gSeed := rfl
@[simp] theorem State.raise_x (e : ErrorCause) : (s.raise e).x = s.x := rfl
@[simp] theorem State.raise_gValid (e : ErrorCause) : (s.raise e).gValid = s.gValid := rfl
@[simp] theorem State.raise_rValid (e : ErrorCause) : (s.raise e).rValid = s.rValid := rfl
@[simp] theorem State.raise_errKind (e : ErrorCause) : (s.raise e).errKind = e.kind := rfl
@[simp] theorem State.raise_errCause (e : ErrorCause) : (s.raise e).errCause = e.code := rfl
@[simp] theorem State.raise_resPreperiod (e : ErrorCause) : (s.raise e).resPreperiod = s.resPreperiod := rfl
@[simp] theorem State.raise_resLen (e : ErrorCause) : (s.raise e).resLen = s.resLen := rfl
@[simp] theorem State.raise_out (e : ErrorCause) : (s.raise e).out = s.out := rfl
@[simp] theorem State.raise_cfg (e : ErrorCause) : (s.raise e).cfg = s.cfg := rfl
@[simp] theorem State.raise_host (e : ErrorCause) : (s.raise e).host = s.host := rfl
@[simp] theorem State.raise_readLog (e : ErrorCause) : (s.raise e).readLog = s.readLog := rfl
@[simp] theorem State.raise_draws (e : ErrorCause) : (s.raise e).draws = s.draws := rfl

/-! `dropGenerator` clears `GVALID` and nothing else. -/

@[simp] theorem State.dropGenerator_opA : (s.dropGenerator).opA = s.opA := rfl
@[simp] theorem State.dropGenerator_opB : (s.dropGenerator).opB = s.opB := rfl
@[simp] theorem State.dropGenerator_opM : (s.dropGenerator).opM = s.opM := rfl
@[simp] theorem State.dropGenerator_opLen : (s.dropGenerator).opLen = s.opLen := rfl
@[simp] theorem State.dropGenerator_opTaps : (s.dropGenerator).opTaps = s.opTaps := rfl
@[simp] theorem State.dropGenerator_opSeed : (s.dropGenerator).opSeed = s.opSeed := rfl
@[simp] theorem State.dropGenerator_opN : (s.dropGenerator).opN = s.opN := rfl
@[simp] theorem State.dropGenerator_opModulus : (s.dropGenerator).opModulus = s.opModulus := rfl
@[simp] theorem State.dropGenerator_outIdx : (s.dropGenerator).outIdx = s.outIdx := rfl
@[simp] theorem State.dropGenerator_gKind : (s.dropGenerator).gKind = s.gKind := rfl
@[simp] theorem State.dropGenerator_gA : (s.dropGenerator).gA = s.gA := rfl
@[simp] theorem State.dropGenerator_gB : (s.dropGenerator).gB = s.gB := rfl
@[simp] theorem State.dropGenerator_gM : (s.dropGenerator).gM = s.gM := rfl
@[simp] theorem State.dropGenerator_gLen : (s.dropGenerator).gLen = s.gLen := rfl
@[simp] theorem State.dropGenerator_gTaps : (s.dropGenerator).gTaps = s.gTaps := rfl
@[simp] theorem State.dropGenerator_gSeed : (s.dropGenerator).gSeed = s.gSeed := rfl
@[simp] theorem State.dropGenerator_x : (s.dropGenerator).x = s.x := rfl
@[simp] theorem State.dropGenerator_gValid : (s.dropGenerator).gValid = false := rfl
@[simp] theorem State.dropGenerator_rValid : (s.dropGenerator).rValid = s.rValid := rfl
@[simp] theorem State.dropGenerator_errKind : (s.dropGenerator).errKind = s.errKind := rfl
@[simp] theorem State.dropGenerator_errCause : (s.dropGenerator).errCause = s.errCause := rfl
@[simp] theorem State.dropGenerator_resPreperiod : (s.dropGenerator).resPreperiod = s.resPreperiod := rfl
@[simp] theorem State.dropGenerator_resLen : (s.dropGenerator).resLen = s.resLen := rfl
@[simp] theorem State.dropGenerator_out : (s.dropGenerator).out = s.out := rfl
@[simp] theorem State.dropGenerator_cfg : (s.dropGenerator).cfg = s.cfg := rfl
@[simp] theorem State.dropGenerator_host : (s.dropGenerator).host = s.host := rfl
@[simp] theorem State.dropGenerator_readLog : (s.dropGenerator).readLog = s.readLog := rfl
@[simp] theorem State.dropGenerator_draws : (s.dropGenerator).draws = s.draws := rfl

/-! `dropResult` clears `RVALID` and nothing else. -/

@[simp] theorem State.dropResult_opA : (s.dropResult).opA = s.opA := rfl
@[simp] theorem State.dropResult_opB : (s.dropResult).opB = s.opB := rfl
@[simp] theorem State.dropResult_opM : (s.dropResult).opM = s.opM := rfl
@[simp] theorem State.dropResult_opLen : (s.dropResult).opLen = s.opLen := rfl
@[simp] theorem State.dropResult_opTaps : (s.dropResult).opTaps = s.opTaps := rfl
@[simp] theorem State.dropResult_opSeed : (s.dropResult).opSeed = s.opSeed := rfl
@[simp] theorem State.dropResult_opN : (s.dropResult).opN = s.opN := rfl
@[simp] theorem State.dropResult_opModulus : (s.dropResult).opModulus = s.opModulus := rfl
@[simp] theorem State.dropResult_outIdx : (s.dropResult).outIdx = s.outIdx := rfl
@[simp] theorem State.dropResult_gKind : (s.dropResult).gKind = s.gKind := rfl
@[simp] theorem State.dropResult_gA : (s.dropResult).gA = s.gA := rfl
@[simp] theorem State.dropResult_gB : (s.dropResult).gB = s.gB := rfl
@[simp] theorem State.dropResult_gM : (s.dropResult).gM = s.gM := rfl
@[simp] theorem State.dropResult_gLen : (s.dropResult).gLen = s.gLen := rfl
@[simp] theorem State.dropResult_gTaps : (s.dropResult).gTaps = s.gTaps := rfl
@[simp] theorem State.dropResult_gSeed : (s.dropResult).gSeed = s.gSeed := rfl
@[simp] theorem State.dropResult_x : (s.dropResult).x = s.x := rfl
@[simp] theorem State.dropResult_gValid : (s.dropResult).gValid = s.gValid := rfl
@[simp] theorem State.dropResult_rValid : (s.dropResult).rValid = false := rfl
@[simp] theorem State.dropResult_errKind : (s.dropResult).errKind = s.errKind := rfl
@[simp] theorem State.dropResult_errCause : (s.dropResult).errCause = s.errCause := rfl
@[simp] theorem State.dropResult_resPreperiod : (s.dropResult).resPreperiod = s.resPreperiod := rfl
@[simp] theorem State.dropResult_resLen : (s.dropResult).resLen = s.resLen := rfl
@[simp] theorem State.dropResult_out : (s.dropResult).out = s.out := rfl
@[simp] theorem State.dropResult_cfg : (s.dropResult).cfg = s.cfg := rfl
@[simp] theorem State.dropResult_host : (s.dropResult).host = s.host := rfl
@[simp] theorem State.dropResult_readLog : (s.dropResult).readLog = s.readLog := rfl
@[simp] theorem State.dropResult_draws : (s.dropResult).draws = s.draws := rfl

/-! `latchLcg` writes the LCG's latches, `X` and `GVALID` (40_lcg_engine.md R124). -/

@[simp] theorem State.latchLcg_opA : (s.latchLcg).opA = s.opA := rfl
@[simp] theorem State.latchLcg_opB : (s.latchLcg).opB = s.opB := rfl
@[simp] theorem State.latchLcg_opM : (s.latchLcg).opM = s.opM := rfl
@[simp] theorem State.latchLcg_opLen : (s.latchLcg).opLen = s.opLen := rfl
@[simp] theorem State.latchLcg_opTaps : (s.latchLcg).opTaps = s.opTaps := rfl
@[simp] theorem State.latchLcg_opSeed : (s.latchLcg).opSeed = s.opSeed := rfl
@[simp] theorem State.latchLcg_opN : (s.latchLcg).opN = s.opN := rfl
@[simp] theorem State.latchLcg_opModulus : (s.latchLcg).opModulus = s.opModulus := rfl
@[simp] theorem State.latchLcg_outIdx : (s.latchLcg).outIdx = s.outIdx := rfl
@[simp] theorem State.latchLcg_gKind : (s.latchLcg).gKind = .lcg := rfl
@[simp] theorem State.latchLcg_gA : (s.latchLcg).gA = s.opA := rfl
@[simp] theorem State.latchLcg_gB : (s.latchLcg).gB = s.opB := rfl
@[simp] theorem State.latchLcg_gM : (s.latchLcg).gM = s.opM := rfl
@[simp] theorem State.latchLcg_gLen : (s.latchLcg).gLen = s.gLen := rfl
@[simp] theorem State.latchLcg_gTaps : (s.latchLcg).gTaps = s.gTaps := rfl
@[simp] theorem State.latchLcg_gSeed : (s.latchLcg).gSeed = s.opSeed := rfl
@[simp] theorem State.latchLcg_x : (s.latchLcg).x = s.opSeed := rfl
@[simp] theorem State.latchLcg_gValid : (s.latchLcg).gValid = true := rfl
@[simp] theorem State.latchLcg_rValid : (s.latchLcg).rValid = s.rValid := rfl
@[simp] theorem State.latchLcg_errKind : (s.latchLcg).errKind = s.errKind := rfl
@[simp] theorem State.latchLcg_errCause : (s.latchLcg).errCause = s.errCause := rfl
@[simp] theorem State.latchLcg_resPreperiod : (s.latchLcg).resPreperiod = s.resPreperiod := rfl
@[simp] theorem State.latchLcg_resLen : (s.latchLcg).resLen = s.resLen := rfl
@[simp] theorem State.latchLcg_out : (s.latchLcg).out = s.out := rfl
@[simp] theorem State.latchLcg_cfg : (s.latchLcg).cfg = s.cfg := rfl
@[simp] theorem State.latchLcg_host : (s.latchLcg).host = s.host := rfl
@[simp] theorem State.latchLcg_readLog : (s.latchLcg).readLog = s.readLog := rfl
@[simp] theorem State.latchLcg_draws : (s.latchLcg).draws = s.draws := rfl

/-! `latchLfsr` writes the LFSR's latches, `X` and `GVALID` (41_lfsr_engine.md R147). -/

@[simp] theorem State.latchLfsr_opA : (s.latchLfsr).opA = s.opA := rfl
@[simp] theorem State.latchLfsr_opB : (s.latchLfsr).opB = s.opB := rfl
@[simp] theorem State.latchLfsr_opM : (s.latchLfsr).opM = s.opM := rfl
@[simp] theorem State.latchLfsr_opLen : (s.latchLfsr).opLen = s.opLen := rfl
@[simp] theorem State.latchLfsr_opTaps : (s.latchLfsr).opTaps = s.opTaps := rfl
@[simp] theorem State.latchLfsr_opSeed : (s.latchLfsr).opSeed = s.opSeed := rfl
@[simp] theorem State.latchLfsr_opN : (s.latchLfsr).opN = s.opN := rfl
@[simp] theorem State.latchLfsr_opModulus : (s.latchLfsr).opModulus = s.opModulus := rfl
@[simp] theorem State.latchLfsr_outIdx : (s.latchLfsr).outIdx = s.outIdx := rfl
@[simp] theorem State.latchLfsr_gKind : (s.latchLfsr).gKind = .lfsr := rfl
@[simp] theorem State.latchLfsr_gA : (s.latchLfsr).gA = s.gA := rfl
@[simp] theorem State.latchLfsr_gB : (s.latchLfsr).gB = s.gB := rfl
@[simp] theorem State.latchLfsr_gM : (s.latchLfsr).gM = s.gM := rfl
@[simp] theorem State.latchLfsr_gLen : (s.latchLfsr).gLen = s.opLen := rfl
@[simp] theorem State.latchLfsr_gTaps : (s.latchLfsr).gTaps = s.opTaps := rfl
@[simp] theorem State.latchLfsr_gSeed : (s.latchLfsr).gSeed = s.opSeed := rfl
@[simp] theorem State.latchLfsr_x : (s.latchLfsr).x = s.opSeed := rfl
@[simp] theorem State.latchLfsr_gValid : (s.latchLfsr).gValid = true := rfl
@[simp] theorem State.latchLfsr_rValid : (s.latchLfsr).rValid = s.rValid := rfl
@[simp] theorem State.latchLfsr_errKind : (s.latchLfsr).errKind = s.errKind := rfl
@[simp] theorem State.latchLfsr_errCause : (s.latchLfsr).errCause = s.errCause := rfl
@[simp] theorem State.latchLfsr_resPreperiod : (s.latchLfsr).resPreperiod = s.resPreperiod := rfl
@[simp] theorem State.latchLfsr_resLen : (s.latchLfsr).resLen = s.resLen := rfl
@[simp] theorem State.latchLfsr_out : (s.latchLfsr).out = s.out := rfl
@[simp] theorem State.latchLfsr_cfg : (s.latchLfsr).cfg = s.cfg := rfl
@[simp] theorem State.latchLfsr_host : (s.latchLfsr).host = s.host := rfl
@[simp] theorem State.latchLfsr_readLog : (s.latchLfsr).readLog = s.readLog := rfl
@[simp] theorem State.latchLfsr_draws : (s.latchLfsr).draws = s.draws := rfl

/-! `commitRun` writes the result of a run (42_sequence_runner.md R175). -/

@[simp] theorem State.commitRun_opA (v : RunVars) : (s.commitRun v).opA = s.opA := rfl
@[simp] theorem State.commitRun_opB (v : RunVars) : (s.commitRun v).opB = s.opB := rfl
@[simp] theorem State.commitRun_opM (v : RunVars) : (s.commitRun v).opM = s.opM := rfl
@[simp] theorem State.commitRun_opLen (v : RunVars) : (s.commitRun v).opLen = s.opLen := rfl
@[simp] theorem State.commitRun_opTaps (v : RunVars) : (s.commitRun v).opTaps = s.opTaps := rfl
@[simp] theorem State.commitRun_opSeed (v : RunVars) : (s.commitRun v).opSeed = s.opSeed := rfl
@[simp] theorem State.commitRun_opN (v : RunVars) : (s.commitRun v).opN = s.opN := rfl
@[simp] theorem State.commitRun_opModulus (v : RunVars) : (s.commitRun v).opModulus = s.opModulus := rfl
@[simp] theorem State.commitRun_outIdx (v : RunVars) : (s.commitRun v).outIdx = s.outIdx := rfl
@[simp] theorem State.commitRun_gKind (v : RunVars) : (s.commitRun v).gKind = s.gKind := rfl
@[simp] theorem State.commitRun_gA (v : RunVars) : (s.commitRun v).gA = s.gA := rfl
@[simp] theorem State.commitRun_gB (v : RunVars) : (s.commitRun v).gB = s.gB := rfl
@[simp] theorem State.commitRun_gM (v : RunVars) : (s.commitRun v).gM = s.gM := rfl
@[simp] theorem State.commitRun_gLen (v : RunVars) : (s.commitRun v).gLen = s.gLen := rfl
@[simp] theorem State.commitRun_gTaps (v : RunVars) : (s.commitRun v).gTaps = s.gTaps := rfl
@[simp] theorem State.commitRun_gSeed (v : RunVars) : (s.commitRun v).gSeed = s.gSeed := rfl
@[simp] theorem State.commitRun_x (v : RunVars) : (s.commitRun v).x = v.x := rfl
@[simp] theorem State.commitRun_gValid (v : RunVars) : (s.commitRun v).gValid = s.gValid := rfl
@[simp] theorem State.commitRun_rValid (v : RunVars) : (s.commitRun v).rValid = true := rfl
@[simp] theorem State.commitRun_errKind (v : RunVars) : (s.commitRun v).errKind = s.errKind := rfl
@[simp] theorem State.commitRun_errCause (v : RunVars) : (s.commitRun v).errCause = s.errCause := rfl
@[simp] theorem State.commitRun_resPreperiod (v : RunVars) : (s.commitRun v).resPreperiod = v.preperiod := rfl
@[simp] theorem State.commitRun_resLen (v : RunVars) : (s.commitRun v).resLen = v.len := rfl
@[simp] theorem State.commitRun_out (v : RunVars) : (s.commitRun v).out = v.out := rfl
@[simp] theorem State.commitRun_cfg (v : RunVars) : (s.commitRun v).cfg = s.cfg := rfl
@[simp] theorem State.commitRun_host (v : RunVars) : (s.commitRun v).host = s.host := rfl
@[simp] theorem State.commitRun_readLog (v : RunVars) : (s.commitRun v).readLog = s.readLog := rfl
@[simp] theorem State.commitRun_draws (v : RunVars) : (s.commitRun v).draws = s.draws := rfl

/-! `logRead` changes nothing of the block (20_memory.md R69). -/

@[simp] theorem State.logRead_opA (r : Reg) : (s.logRead r).opA = s.opA := rfl
@[simp] theorem State.logRead_opB (r : Reg) : (s.logRead r).opB = s.opB := rfl
@[simp] theorem State.logRead_opM (r : Reg) : (s.logRead r).opM = s.opM := rfl
@[simp] theorem State.logRead_opLen (r : Reg) : (s.logRead r).opLen = s.opLen := rfl
@[simp] theorem State.logRead_opTaps (r : Reg) : (s.logRead r).opTaps = s.opTaps := rfl
@[simp] theorem State.logRead_opSeed (r : Reg) : (s.logRead r).opSeed = s.opSeed := rfl
@[simp] theorem State.logRead_opN (r : Reg) : (s.logRead r).opN = s.opN := rfl
@[simp] theorem State.logRead_opModulus (r : Reg) : (s.logRead r).opModulus = s.opModulus := rfl
@[simp] theorem State.logRead_outIdx (r : Reg) : (s.logRead r).outIdx = s.outIdx := rfl
@[simp] theorem State.logRead_gKind (r : Reg) : (s.logRead r).gKind = s.gKind := rfl
@[simp] theorem State.logRead_gA (r : Reg) : (s.logRead r).gA = s.gA := rfl
@[simp] theorem State.logRead_gB (r : Reg) : (s.logRead r).gB = s.gB := rfl
@[simp] theorem State.logRead_gM (r : Reg) : (s.logRead r).gM = s.gM := rfl
@[simp] theorem State.logRead_gLen (r : Reg) : (s.logRead r).gLen = s.gLen := rfl
@[simp] theorem State.logRead_gTaps (r : Reg) : (s.logRead r).gTaps = s.gTaps := rfl
@[simp] theorem State.logRead_gSeed (r : Reg) : (s.logRead r).gSeed = s.gSeed := rfl
@[simp] theorem State.logRead_x (r : Reg) : (s.logRead r).x = s.x := rfl
@[simp] theorem State.logRead_gValid (r : Reg) : (s.logRead r).gValid = s.gValid := rfl
@[simp] theorem State.logRead_rValid (r : Reg) : (s.logRead r).rValid = s.rValid := rfl
@[simp] theorem State.logRead_errKind (r : Reg) : (s.logRead r).errKind = s.errKind := rfl
@[simp] theorem State.logRead_errCause (r : Reg) : (s.logRead r).errCause = s.errCause := rfl
@[simp] theorem State.logRead_resPreperiod (r : Reg) : (s.logRead r).resPreperiod = s.resPreperiod := rfl
@[simp] theorem State.logRead_resLen (r : Reg) : (s.logRead r).resLen = s.resLen := rfl
@[simp] theorem State.logRead_out (r : Reg) : (s.logRead r).out = s.out := rfl
@[simp] theorem State.logRead_cfg (r : Reg) : (s.logRead r).cfg = s.cfg := rfl
@[simp] theorem State.logRead_host (r : Reg) : (s.logRead r).host = s.host := rfl
@[simp] theorem State.logRead_readLog (r : Reg) : (s.logRead r).readLog = s.readReg r :: s.readLog := rfl
@[simp] theorem State.logRead_draws (r : Reg) : (s.logRead r).draws = s.draws := rfl

/-! A host write to a register changes operand registers and `OUT_IDX` only (43_host_access.md R190). -/

@[simp] theorem State.writeReg_opA (r : Reg) (v : Nat) :
    (s.writeReg r v).opA = if r = .opA then v else s.opA := by cases r <;> rfl
@[simp] theorem State.writeReg_opB (r : Reg) (v : Nat) :
    (s.writeReg r v).opB = if r = .opB then v else s.opB := by cases r <;> rfl
@[simp] theorem State.writeReg_opM (r : Reg) (v : Nat) :
    (s.writeReg r v).opM = if r = .opM then BitVec.ofNat 16 v else s.opM := by cases r <;> rfl
@[simp] theorem State.writeReg_opLen (r : Reg) (v : Nat) :
    (s.writeReg r v).opLen = if r = .opLen then BitVec.ofNat 16 v else s.opLen := by cases r <;> rfl
@[simp] theorem State.writeReg_opTaps (r : Reg) (v : Nat) :
    (s.writeReg r v).opTaps = if r = .opTaps then v else s.opTaps := by cases r <;> rfl
@[simp] theorem State.writeReg_opSeed (r : Reg) (v : Nat) :
    (s.writeReg r v).opSeed = if r = .opSeed then v else s.opSeed := by cases r <;> rfl
@[simp] theorem State.writeReg_opN (r : Reg) (v : Nat) :
    (s.writeReg r v).opN = if r = .opN then v else s.opN := by cases r <;> rfl
@[simp] theorem State.writeReg_opModulus (r : Reg) (v : Nat) :
    (s.writeReg r v).opModulus = if r = .opModulus then v else s.opModulus := by cases r <;> rfl
@[simp] theorem State.writeReg_outIdx (r : Reg) (v : Nat) :
    (s.writeReg r v).outIdx = if r = .outIdx then v else s.outIdx := by cases r <;> rfl
@[simp] theorem State.writeReg_gKind (r : Reg) (v : Nat) : (s.writeReg r v).gKind = s.gKind := by
  cases r <;> rfl
@[simp] theorem State.writeReg_gA (r : Reg) (v : Nat) : (s.writeReg r v).gA = s.gA := by
  cases r <;> rfl
@[simp] theorem State.writeReg_gB (r : Reg) (v : Nat) : (s.writeReg r v).gB = s.gB := by
  cases r <;> rfl
@[simp] theorem State.writeReg_gM (r : Reg) (v : Nat) : (s.writeReg r v).gM = s.gM := by
  cases r <;> rfl
@[simp] theorem State.writeReg_gLen (r : Reg) (v : Nat) : (s.writeReg r v).gLen = s.gLen := by
  cases r <;> rfl
@[simp] theorem State.writeReg_gTaps (r : Reg) (v : Nat) : (s.writeReg r v).gTaps = s.gTaps := by
  cases r <;> rfl
@[simp] theorem State.writeReg_gSeed (r : Reg) (v : Nat) : (s.writeReg r v).gSeed = s.gSeed := by
  cases r <;> rfl
@[simp] theorem State.writeReg_x (r : Reg) (v : Nat) : (s.writeReg r v).x = s.x := by
  cases r <;> rfl
@[simp] theorem State.writeReg_gValid (r : Reg) (v : Nat) : (s.writeReg r v).gValid = s.gValid := by
  cases r <;> rfl
@[simp] theorem State.writeReg_rValid (r : Reg) (v : Nat) : (s.writeReg r v).rValid = s.rValid := by
  cases r <;> rfl
@[simp] theorem State.writeReg_errKind (r : Reg) (v : Nat) : (s.writeReg r v).errKind = s.errKind := by
  cases r <;> rfl
@[simp] theorem State.writeReg_errCause (r : Reg) (v : Nat) : (s.writeReg r v).errCause = s.errCause := by
  cases r <;> rfl
@[simp] theorem State.writeReg_resPreperiod (r : Reg) (v : Nat) : (s.writeReg r v).resPreperiod = s.resPreperiod := by
  cases r <;> rfl
@[simp] theorem State.writeReg_resLen (r : Reg) (v : Nat) : (s.writeReg r v).resLen = s.resLen := by
  cases r <;> rfl
@[simp] theorem State.writeReg_out (r : Reg) (v : Nat) : (s.writeReg r v).out = s.out := by
  cases r <;> rfl
@[simp] theorem State.writeReg_cfg (r : Reg) (v : Nat) : (s.writeReg r v).cfg = s.cfg := by
  cases r <;> rfl
@[simp] theorem State.writeReg_host (r : Reg) (v : Nat) : (s.writeReg r v).host = s.host := by
  cases r <;> rfl
@[simp] theorem State.writeReg_readLog (r : Reg) (v : Nat) : (s.writeReg r v).readLog = s.readLog := by
  cases r <;> rfl
@[simp] theorem State.writeReg_draws (r : Reg) (v : Nat) : (s.writeReg r v).draws = s.draws := by
  cases r <;> rfl

/-! The block without the host's lists is untouched by what the host has still to do and by a read
(20_memory.md R69). -/

@[simp] theorem State.block_host (rest : List HostEvent) :
    ({ s with host := rest } : State).block = s.block := rfl

@[simp] theorem State.block_logRead (r : Reg) : (s.logRead r).block = s.block := rfl

/-- A read returns the same value again after any read: it depends on the block alone. -/
theorem State.readReg_congr {s t : State} (h : t.block = s.block) (r : Reg) :
    t.readReg r = s.readReg r := by
  have hs : ∀ u : State, u.block.readReg r = u.readReg r := fun u => by cases r <;> rfl
  rw [← hs t, ← hs s, h]

@[simp] theorem State.readReg_logRead (r q : Reg) : (s.logRead r).readReg q = s.readReg q :=
  State.readReg_congr rfl q

end Sys2Proof.Machine
end

