-- ==== Sys2Proof/Laws/Exec.lean ====
section
/-! SUPPORT. What each command and each step can do, said once: the provers cite these instead of
unfolding a meaning. -/

namespace Sys2Proof.Machine

/-- `CONSTRUCT.LCG` either raises the first error that applies or latches the generator. -/
theorem exec_constructLcg_eq (s : State) :
    exec .constructLcg s = .next (match s.lcgError with
      | some e => s.dropGenerator.raise e
      | none => s.clearError.latchLcg) := by
  have h : s.clearError.dropGenerator.lcgError = s.lcgError := rfl
  simp only [exec, execConstructLcg, h]
  cases s.lcgError <;> rfl

/-- `CONSTRUCT.LFSR` either raises the first error that applies or latches the generator. -/
theorem exec_constructLfsr_eq (s : State) :
    exec .constructLfsr s = .next (match s.lfsrError with
      | some e => s.dropGenerator.raise e
      | none => s.clearError.latchLfsr) := by
  have h : s.clearError.dropGenerator.lfsrError = s.lfsrError := rfl
  simp only [exec, execConstructLfsr, h]
  cases s.lfsrError <;> rfl

/-- The engine depends on the latched configuration alone. -/
theorem engineStep_congr {s t : State} (hk : t.gKind = s.gKind) (ha : t.gA = s.gA) (hb : t.gB = s.gB)
    (hm : t.gM = s.gM) (hl : t.gLen = s.gLen) (ht : t.gTaps = s.gTaps) :
    t.engineStep = s.engineStep := by
  funext x
  simp only [State.engineStep, hk, ha, hb, hm, hl, ht]

/-- The loop depends on the state through the engine alone. -/
theorem runLoop_congr {s t : State} (h : t.engineStep = s.engineStep) (stop : Bool) (q : Option Nat)
    (n : Nat) (v : RunVars) : t.runLoop stop q n v = s.runLoop stop q n v := by
  induction n generalizing v with
  | zero => rfl
  | succ n ih => simp only [State.runLoop, h, ih]

/-- `RUN` either raises the first entry error that applies or commits what the loop leaves. -/
theorem exec_run_eq (stop moden reseed : Bool) (s : State) :
    exec (.run stop moden reseed) s = .next (match s.runError moden with
      | some e => s.dropResult.raise e
      | none => s.clearError.commitRun
          (s.runLoop stop (s.modulusOf moden) s.opN (s.runStart reseed))) := by
  have h : s.clearError.dropResult.runError moden = s.runError moden := rfl
  simp only [exec, execRun, h]
  cases s.runError moden with
  | some e => rfl
  | none =>
    rw [runLoop_congr (s := s) (t := s.clearError.dropResult) rfl]
    rfl

/-- The entry checks of `RUN` raise nothing iff there is a generator, the budget is in range and a
modulus that is used is not 0. -/
theorem runError_eq_none_iff (moden : Bool) (s : State) :
    s.runError moden = none ↔ s.gValid = true ∧ 1 ≤ s.opN ∧ s.opN ≤ s.cfg.histDepth ∧
      (moden = true → s.opModulus ≠ 0) := by
  unfold State.runError
  split
  · simp_all
  · split
    · simp_all
    · split
      · simp only [reduceCtorEq, false_iff]
        omega
      · split
        · simp_all
        · rename_i h1 h2 h3 h4
          simp only [true_iff]
          exact ⟨by simpa using h1, by omega, by omega, fun hm hq => h4 ⟨hm, hq⟩⟩

/-- `Execute` is the error report for an illegal word and the command otherwise. -/
theorem execute_instr {c : CmdWord} {i : Instr} (s : State) (h : decode c = .instr i) :
    execute c s = exec i s := by simp only [execute, h]

theorem execute_illegal {c : CmdWord} {w : IllegalWord} (s : State) (h : decode c = .illegal w) :
    execute c s = .next (s.raise (illegalCause w)) := by simp only [execute, h]

/-- A step with something to do does the first thing on the host's list. -/
theorem step_cons {s : State} {e : HostEvent} {rest : List HostEvent} (h : s.host = e :: rest) :
    step s = hostEvent e { s with host := rest } := by simp only [step, h]

/-- A host write of a command word to `CMD` executes it. -/
theorem hostWrite_cmd (c : CmdWord) (s : State) : hostWrite 0 c.toNat s = execute c s := by
  have hr : Reg.ofNumber 0 = some .cmd := rfl
  have hw : c.toNat < 2 ^ Reg.cmd.width s.cfg := c.isLt
  simp only [hostWrite, hr, if_pos hw, if_true, BitVec.ofNat_toNat, BitVec.setWidth_eq]

/-- A host write of a value of its width to an assigned register other than `CMD` stores it. -/
theorem hostWrite_reg {n v : Nat} {r : Reg} {s : State} (hr : Reg.ofNumber n = some r)
    (hv : v < 2 ^ r.width s.cfg) (hc : r ≠ .cmd) : hostWrite n v s = .next (s.writeReg r v) := by
  simp only [hostWrite, hr, if_pos hv, if_neg hc]

/-- A host read of an assigned register logs what it returns. -/
theorem hostRead_reg {n : Nat} {r : Reg} {s : State} (hr : Reg.ofNumber n = some r) :
    hostRead n s = .next (s.logRead r) := by simp only [hostRead, hr]

/-- Everything a host write that answers a next state can have done. -/
theorem hostWrite_next {n v : Nat} {s t : State} (h : hostWrite n v s = .next t) :
    ∃ r, Reg.ofNumber n = some r ∧ v < 2 ^ r.width s.cfg ∧
      ((r = .cmd ∧ execute (BitVec.ofNat 32 v) s = .next t) ∨ (r ≠ .cmd ∧ t = s.writeReg r v)) := by
  unfold hostWrite at h
  split at h
  · cases h
  · rename_i r hr
    refine ⟨r, hr, ?_⟩
    split at h
    · rename_i hv
      refine ⟨hv, ?_⟩
      split at h
      · exact .inl ⟨‹_›, h⟩
      · cases h
        exact .inr ⟨‹_›, rfl⟩
    · cases h

/-- Everything a host read that answers a next state can have done. -/
theorem hostRead_next {n : Nat} {s t : State} (h : hostRead n s = .next t) :
    ∃ r, Reg.ofNumber n = some r ∧ t = s.logRead r := by
  unfold hostRead at h
  split at h
  · cases h
  · rename_i r hr
    cases h
    exact ⟨r, hr, rfl⟩

/-- Everything a step that answers a next state can have done: nothing, a host write, a host read or
the reset event. -/
theorem step_next {s t : State} (h : step s = .next t) :
    (s.host = [] ∧ t = s) ∨ ∃ e rest, s.host = e :: rest ∧
      ((∃ n v, e = .wr n v ∧ hostWrite n v { s with host := rest } = .next t) ∨
        (∃ n, e = .rd n ∧ hostRead n { s with host := rest } = .next t) ∨
        (e = .reset ∧ t = ({ s with host := rest } : State).resetEvent)) := by
  unfold step at h
  split at h
  · cases h
    exact .inl ⟨‹_›, rfl⟩
  · rename_i e rest hs
    refine .inr ⟨e, rest, hs, ?_⟩
    cases e with
    | wr n v => exact .inl ⟨n, v, rfl, h⟩
    | rd n => exact .inr (.inl ⟨n, rfl, h⟩)
    | reset =>
      cases h
      exact .inr (.inr ⟨rfl, rfl⟩)

end Sys2Proof.Machine
end

