-- ==== Sys2Proof/Laws/Memory.lean ====
section
/-! SUPPORT. The laws of the two memories: a read after a write, the canonical form of `OUT`, and
exact membership in the visited set (20_memory.md R62 to R65). -/

namespace Sys2Proof.Machine

@[simp] theorem OutBuffer.read_nil (k : Nat) : OutBuffer.read [] k = none := rfl

/-- Reading the entry just written gives the value written. -/
@[simp] theorem OutBuffer.read_write_same (m : OutBuffer) (k : Nat) (v : Nat) :
    OutBuffer.read (OutBuffer.write m k v) k = some v := by
  induction m with
  | nil => simp [OutBuffer.write, OutBuffer.read]
  | cons e rest ih =>
    obtain ⟨j, w⟩ := e
    simp only [OutBuffer.write]
    split
    · simp [OutBuffer.read]
    · split
      · simp [OutBuffer.read]
      · rename_i h
        simp [OutBuffer.read, h, ih]

/-- A write leaves every other entry alone. -/
theorem OutBuffer.read_write_ne (m : OutBuffer) {k j : Nat} (v : Nat) (h : j ≠ k) :
    OutBuffer.read (OutBuffer.write m k v) j = OutBuffer.read m j := by
  induction m with
  | nil => simp [OutBuffer.write, OutBuffer.read, h]
  | cons e rest ih =>
    obtain ⟨i, w⟩ := e
    simp only [OutBuffer.write]
    split
    · simp [OutBuffer.read, h]
    · split
      · rename_i hk
        subst hk
        simp [OutBuffer.read, h]
      · simp only [OutBuffer.read, ih]

/-- The indices a write leaves listed are those listed before and the one written. -/
theorem OutBuffer.mem_write {m : OutBuffer} {k : Nat} {v : Nat} {e : Nat × Nat}
    (h : e ∈ OutBuffer.write m k v) : e = (k, v) ∨ e ∈ m := by
  induction m with
  | nil => simpa [OutBuffer.write] using h
  | cons d rest ih =>
    obtain ⟨j, w⟩ := d
    simp only [OutBuffer.write] at h
    split at h
    · simpa using h
    · split at h
      · rcases List.mem_cons.1 h with h | h
        · exact .inl h
        · exact .inr (List.mem_cons_of_mem _ h)
      · rcases List.mem_cons.1 h with h | h
        · exact .inr (by simp [h])
        · exact (ih h).imp_right (List.mem_cons_of_mem _)

@[simp] theorem OutBuffer.wf_nil : OutBuffer.wf [] = true := rfl

/-- The canonical form, entry by entry. -/
theorem OutBuffer.wf_iff (m : OutBuffer) :
    OutBuffer.wf m = true ↔ m.Pairwise fun a b => a.1 < b.1 := by simp [OutBuffer.wf]

/-- The canonical form of a list with a first entry. -/
theorem OutBuffer.wf_cons (e : Nat × Nat) (m : OutBuffer) :
    OutBuffer.wf (e :: m) = true ↔ (∀ d ∈ m, e.1 < d.1) ∧ OutBuffer.wf m = true := by
  simp [OutBuffer.wf_iff]

/-- Every write keeps the canonical form. -/
theorem OutBuffer.write_wf {m : OutBuffer} (k : Nat) (v : Nat) (h : OutBuffer.wf m = true) :
    OutBuffer.wf (OutBuffer.write m k v) = true := by
  induction m with
  | nil => rfl
  | cons e rest ih =>
    obtain ⟨j, w⟩ := e
    obtain ⟨hj, hr⟩ := (OutBuffer.wf_cons _ _).1 h
    simp only [OutBuffer.write]
    split
    · rename_i hk
      refine (OutBuffer.wf_cons _ _).2 ⟨fun d hd => ?_, h⟩
      rcases List.mem_cons.1 hd with rfl | hd
      · exact hk
      · exact hk.trans (hj d hd)
    · split
      · rename_i _ hk
        subst hk
        exact (OutBuffer.wf_cons _ _).2 ⟨hj, hr⟩
      · rename_i hk hne
        refine (OutBuffer.wf_cons _ _).2 ⟨fun d hd => ?_, ih hr⟩
        rcases OutBuffer.mem_write hd with rfl | hd
        · exact lt_of_le_of_ne (Nat.le_of_not_lt hk) (Ne.symm hne)
        · exact hj d hd

/-- In canonical form every listed entry is what a read of its index gives. -/
theorem OutBuffer.read_eq_of_mem {m : OutBuffer} {k : Nat} {v : Nat} (hw : OutBuffer.wf m = true)
    (h : (k, v) ∈ m) : OutBuffer.read m k = some v := by
  induction m with
  | nil => simp at h
  | cons e rest ih =>
    obtain ⟨j, w⟩ := e
    obtain ⟨hj, hr⟩ := (OutBuffer.wf_cons _ _).1 hw
    simp only [OutBuffer.read]
    rcases List.mem_cons.1 h with h | h
    · obtain ⟨rfl, rfl⟩ := Prod.mk.inj h
      simp
    · have hlt : j < k := hj _ h
      simp [hlt.ne', ih hr h]

/-- In canonical form, writing what an entry already holds changes nothing. -/
theorem OutBuffer.write_read_self {m : OutBuffer} {k : Nat} {v : Nat} (hw : OutBuffer.wf m = true)
    (h : OutBuffer.read m k = some v) : OutBuffer.write m k v = m := by
  induction m with
  | nil => simp at h
  | cons e rest ih =>
    obtain ⟨j, w⟩ := e
    obtain ⟨hj, hr⟩ := (OutBuffer.wf_cons _ _).1 hw
    simp only [OutBuffer.read] at h
    simp only [OutBuffer.write]
    by_cases hk : k = j
    · subst hk
      simp_all
    · rw [if_neg hk] at h
      have hmem : ∃ u, (k, u) ∈ rest := by
        clear ih hw hj hr
        induction rest with
        | nil => simp at h
        | cons d more ih' =>
          obtain ⟨i, u⟩ := d
          simp only [OutBuffer.read] at h
          by_cases hi : k = i
          · exact ⟨u, by simp [hi]⟩
          · rw [if_neg hi] at h
            exact (ih' h).imp fun _ hu => List.mem_cons_of_mem _ hu
      obtain ⟨u, hu⟩ := hmem
      have hlt : j < k := hj _ hu
      rw [if_neg (by omega), if_neg hk, ih hr h]

@[simp] theorem histContains_iff (visited : List Nat) (v : Nat) :
    histContains visited v = true ↔ v ∈ visited := by simp [histContains]

@[simp] theorem histContains_nil (v : Nat) : histContains [] v = false := rfl

/-- The members after an insertion are those before it and the value inserted. -/
@[simp] theorem mem_histInsert (visited : List Nat) (v w : Nat) :
    w ∈ histInsert visited v ↔ w = v ∨ w ∈ visited := by
  unfold histInsert
  split
  · rename_i h
    exact ⟨.inr, fun hw => hw.elim (fun e => e ▸ h) id⟩
  · exact List.mem_cons

/-- An insertion keeps the set free of repeats. -/
theorem histInsert_nodup {visited : List Nat} (v : Nat) (h : visited.Nodup) :
    (histInsert visited v).Nodup := by
  unfold histInsert
  split
  · exact h
  · rename_i hv
    exact List.nodup_cons.2 ⟨hv, h⟩

/-- An insertion adds at most one member. -/
theorem histInsert_length_le (visited : List Nat) (v : Nat) :
    (histInsert visited v).length ≤ visited.length + 1 := by
  unfold histInsert
  split <;> simp

end Sys2Proof.Machine
end

