-- ==== Sys2Proof/Laws/PerInstr.lean ====
section
/-! SUPPORT. Statements made of every command as syntax, one lemma for each constructor. -/

namespace Sys2Proof.Laws.RoundTrip

/-- The word of a command is a legal word that decodes to it (30_encoding.md R90, R99). -/
def Statement (i : Instr) : Prop := decode (encode i) = .instr i

theorem constructLcg : Statement .constructLcg := by unfold Statement; decide

theorem constructLfsr : Statement .constructLfsr := by unfold Statement; decide

theorem run (stop moden reseed : Bool) : Statement (.run stop moden reseed) := by
  unfold Statement
  cases stop <;> cases moden <;> cases reseed <;> decide

end Sys2Proof.Laws.RoundTrip
end

