-- ==== Sys2Proof/Laws/Runner.lean ====
section
/-! SUPPORT. The engines' bounds and the run loop, one round at a time (42_sequence_runner.md R165 to
R169). -/

namespace Sys2Proof.Machine

/-- An LCG step stays below `2^m` (40_lcg_engine.md R122). -/
theorem lcgNext_lt (a b : Nat) (m : Nat) (x : Nat) : lcgNext a b m x < 2 ^ m :=
  Nat.mod_lt _ (by positivity)

/-- An LFSR step stays below `2^L` (41_lfsr_engine.md R144). -/
theorem lfsrNext_lt (taps : Nat) (len : Nat) (x : Nat) : lfsrNext taps len x < 2 ^ len :=
  Nat.mod_lt _ (by positivity)

/-- A projected value is no larger than the raw value. -/
theorem project_le (q : Option Nat) (raw : Nat) : project q raw ≤ raw := by
  cases q with
  | none => exact le_rfl
  | some q => exact Nat.mod_le _ _

@[simp] theorem project_none (raw : Nat) : project none raw = raw := rfl

@[simp] theorem project_some (q raw : Nat) : project (some q) raw = raw % q := rfl

/-! What `detect` and `emit` do to each working variable. -/

@[simp] theorem RunVars.detect_x (raw : Nat) (v : RunVars) : (v.detect raw).x = raw := by
  unfold RunVars.detect; split <;> rfl

@[simp] theorem RunVars.detect_visited (raw : Nat) (v : RunVars) :
    (v.detect raw).visited = v.visited := by unfold RunVars.detect; split <;> rfl

@[simp] theorem RunVars.detect_i (raw : Nat) (v : RunVars) : (v.detect raw).i = v.i := by
  unfold RunVars.detect; split <;> rfl

@[simp] theorem RunVars.detect_len (raw : Nat) (v : RunVars) : (v.detect raw).len = v.len := by
  unfold RunVars.detect; split <;> rfl

@[simp] theorem RunVars.detect_out (raw : Nat) (v : RunVars) : (v.detect raw).out = v.out := by
  unfold RunVars.detect; split <;> rfl

@[simp] theorem RunVars.detect_pset (raw : Nat) (v : RunVars) :
    (v.detect raw).pset = (v.pset || histContains v.visited raw) := by
  unfold RunVars.detect
  split
  · rename_i h
    simp [h.1, h.2]
  · rename_i h
    cases hp : v.pset <;> cases hc : histContains v.visited raw <;> simp_all

/-- The first repeat is recorded once: a recorded index stays. -/
@[simp] theorem RunVars.detect_pre (raw : Nat) (v : RunVars) :
    (v.detect raw).pre = if histContains v.visited raw = true ∧ v.pset = false then v.i else v.pre := by
  unfold RunVars.detect; split <;> rfl

@[simp] theorem RunVars.emit_x (q : Option Nat) (raw : Nat) (v : RunVars) :
    (v.emit q raw).x = v.x := rfl

@[simp] theorem RunVars.emit_visited (q : Option Nat) (raw : Nat) (v : RunVars) :
    (v.emit q raw).visited = histInsert v.visited raw := rfl

@[simp] theorem RunVars.emit_i (q : Option Nat) (raw : Nat) (v : RunVars) :
    (v.emit q raw).i = v.i + 1 := rfl

@[simp] theorem RunVars.emit_len (q : Option Nat) (raw : Nat) (v : RunVars) :
    (v.emit q raw).len = v.len + 1 := rfl

@[simp] theorem RunVars.emit_pset (q : Option Nat) (raw : Nat) (v : RunVars) :
    (v.emit q raw).pset = v.pset := rfl

@[simp] theorem RunVars.emit_pre (q : Option Nat) (raw : Nat) (v : RunVars) :
    (v.emit q raw).pre = v.pre := rfl

@[simp] theorem RunVars.emit_out (q : Option Nat) (raw : Nat) (v : RunVars) :
    (v.emit q raw).out = OutBuffer.write v.out v.len (project q raw) := rfl

/-! The loop, one round at a time. -/

@[simp] theorem runLoop_zero (stop : Bool) (q : Option Nat) (s : State) (v : RunVars) :
    s.runLoop stop q 0 v = v := rfl

/-- Exit (b): a repeat ends a run with `stop = 1`. -/
theorem runLoop_stop {q : Option Nat} {s : State} {n : Nat} {v : RunVars}
    (h : s.engineStep v.x ∈ v.visited) :
    s.runLoop true q (n + 1) v = v.detect (s.engineStep v.x) := by
  simp [State.runLoop, h]

/-- A round that does not end the run. -/
theorem runLoop_go {stop : Bool} {q : Option Nat} {s : State} {n : Nat} {v : RunVars}
    (h : stop = false ∨ s.engineStep v.x ∉ v.visited) :
    s.runLoop stop q (n + 1) v =
      s.runLoop stop q n ((v.detect (s.engineStep v.x)).emit q (s.engineStep v.x)) := by
  have hne : ¬ (histContains v.visited (s.engineStep v.x) = true ∧ stop = true) := by
    rcases h with rfl | h <;> simp_all
  simp only [State.runLoop, if_neg hne]

/-- A property of the working variables that every round keeps, the last one included, holds of what
the loop leaves. -/
theorem runLoop_induct {stop : Bool} {q : Option Nat} {s : State} (P : RunVars → Prop)
    (hstop : ∀ v, P v → s.engineStep v.x ∈ v.visited → P (v.detect (s.engineStep v.x)))
    (hgo : ∀ v, P v → P ((v.detect (s.engineStep v.x)).emit q (s.engineStep v.x)))
    (n : Nat) (v : RunVars) (h : P v) : P (s.runLoop stop q n v) := by
  induction n generalizing v with
  | zero => exact h
  | succ n ih =>
    by_cases hs : stop = false ∨ s.engineStep v.x ∉ v.visited
    · rw [runLoop_go hs]
      exact ih _ (hgo v h)
    · have hs' : stop = true ∧ s.engineStep v.x ∈ v.visited := by simpa using hs
      obtain ⟨rfl, hm⟩ := hs'
      rw [runLoop_stop hm]
      exact hstop v h hm

end Sys2Proof.Machine
end

