-- ==== Sys2Proof/Tests/Slice0.lean ====
section
/-! SUPPORT. Tests: expected values are those of spec/95_test_vectors.md or written out from the
tables of the spec by hand; the source of each is named. Witnesses: for every statement with
hypotheses, concrete operands that meet them together. -/

namespace Sys2Proof.Tests

open Sys2Proof Sys2Proof.Machine

/-- The state of an outcome that goes on. -/
def nextOf (o : Host.Outcome State Fault Refusal) : Option State :=
  match o with
  | .next t => some t
  | .fault _ => none
  | .refused _ => none

/-- The refusal of an outcome that has one. -/
def refusalOf (o : Host.Outcome State Fault Refusal) : Option Refusal :=
  match o with
  | .next _ => none
  | .fault _ => none
  | .refused r => some r

/-- The operands of 95_test_vectors.md scenario A. -/
def lcgOperands : State := { State.reset with opA := 3, opB := 2, opM := 24#16, opSeed := 5 }

/-- The operands of scenario C. -/
def lfsrOperands : State := { State.reset with opLen := 8#16, opTaps := 0x94, opSeed := 0xB2 }

/-- The generator of scenario C, with a budget of 1000. -/
def lfsrGen : State :=
  { lfsrOperands with
    gValid := true, gKind := .lfsr, gLen := 8#16, gTaps := 0x94, gSeed := 0xB2, x := 0xB2, opN := 1000 }

/-- The generator of vectors V-N6 to V-N10 (a tail 4, 16, 64, then the fixed point 0), budget 5. -/
def lcgGen : State :=
  { State.reset with
    gValid := true, gKind := .lcg, gA := 4, gB := 0, gM := 8#16, gSeed := 1, x := 1, opN := 5 }

/-- A generator of period 1 (vector V-N4), budget 5: the first repeat is at index 1. -/
def fixedGen : State := { lcgGen with gA := 1, gSeed := 7, x := 7 }

/-- `fixedGen` after its run with `STOP` (vector V-N4), its result one value long. -/
def liveState : State :=
  { fixedGen with rValid := true, resPreperiod := 1, resLen := 1, out := [(0, 7)] }

/-! ### Decoding -/

/-- The ten legal words, each written out from the format tables of 30_encoding.md R90
(95_test_vectors.md section 2.8). -/
theorem test_decode_legal_words :
    decode 0b00000000000000000000000000000001#32 = .instr .constructLcg ∧
    decode 0b00000000000000000000000100000001#32 = .instr .constructLfsr ∧
    decode 0b00000000000000000000000000000010#32 = .instr (.run false false false) ∧
    decode 0b00000000000000000000000100000010#32 = .instr (.run true false false) ∧
    decode 0b00000000000000000000001000000010#32 = .instr (.run false true false) ∧
    decode 0b00000000000000000000001100000010#32 = .instr (.run true true false) ∧
    decode 0b00000000000000000000010000000010#32 = .instr (.run false false true) ∧
    decode 0b00000000000000000000010100000010#32 = .instr (.run true false true) ∧
    decode 0b00000000000000000000011000000010#32 = .instr (.run false true true) ∧
    decode 0b00000000000000000000011100000010#32 = .instr (.run true true true) := by decide

/-- 95_test_vectors.md section 2.8. -/
theorem test_decode_illegal_words :
    decode 0x00000000#32 = .illegal .opcode ∧ decode 0x00000003#32 = .illegal .opcode ∧
    decode 0x0000000F#32 = .illegal .opcode ∧ decode 0x00000100#32 = .illegal .opcode ∧
    decode 0xFFFFFFFF#32 = .illegal .opcode ∧ decode 0x00000011#32 = .illegal .reserved ∧
    decode 0x00000012#32 = .illegal .reserved ∧ decode 0x00000201#32 = .illegal .reserved ∧
    decode 0x00000802#32 = .illegal .reserved ∧ decode 0x00010002#32 = .illegal .reserved ∧
    decode 0x80000001#32 = .illegal .reserved := by decide

/-- The words of 30_encoding.md R94. -/
theorem test_encode_words :
    encode .constructLcg = 0x001#32 ∧ encode .constructLfsr = 0x101#32 ∧
    encode (.run true false false) = 0x102#32 ∧ encode (.run false true false) = 0x202#32 ∧
    encode (.run false false true) = 0x402#32 := by decide

theorem test_decodeTableWord :
    decodeTableWord 32 0x101 = some .constructLfsr ∧ decodeTableWord 32 0x502 = some (.run true false true) ∧
    decodeTableWord 16 0x702 = some (.run true true true) ∧ decodeTableWord 32 0 = none ∧
    decodeTableWord 64 0x100000001 = none := by decide

/-! ### What is not well formed is refused -/

/-- No term of `Instr` is ill formed (30_encoding.md R91, R92). -/
theorem test_every_command_is_well_formed (i : Instr) : i.wf = true := by cases i <;> rfl

/-- Register number 0x0F is unassigned (43_host_access.md R193). -/
theorem test_unassigned_register_is_ill_formed :
    HostEvent.wf Config.reference (.rd 0x0F) = false ∧
    HostEvent.wf Config.reference (.wr 0x0F 0) = false ∧
    HostEvent.wf Config.reference (.rd 0x0E) = true ∧
    refusalOf (step { State.reset with host := [.rd 0x0F] }) = some (.unassignedRegister 0x0F) ∧
    refusalOf (step { State.reset with host := [.wr 0x0F 0] }) = some (.unassignedRegister 0x0F) := by
  decide

/-- A value of 17 bits does not have `OP_M`'s width (10_state.md R21, 43_host_access.md R190). -/
theorem test_wide_value_is_ill_formed :
    HostEvent.wf Config.reference (.wr 0x04 0x10000) = false ∧
    HostEvent.wf Config.reference (.wr 0x04 0xFFFF) = true ∧
    refusalOf (step { State.reset with host := [.wr 0x04 0x10000] }) =
      some (.valueTooWide 0x04 0x10000) := by decide

/-! ### The commands -/

/-- Scenario A, step 0, and vectors V-L3, V-L6, V-L7, V-L10, V-L11. -/
theorem test_lcg_step :
    lcgNext 3 2 24 5 = 17 ∧ lcgNext 3 2 24 0xFFFFFF = 0xFFFFFF ∧ lcgNext 1 1 1 0 = 1 ∧
    lcgNext 0 9 8 200 = 9 ∧ lcgNext (2 ^ 64 - 1) (2 ^ 64 - 1) 64 (2 ^ 64 - 1) = 0 ∧
    lcgNext 0x5851F42D4C957F2D 0x14057B7EF767814F 64 0x123456789ABCDEF0 = 0xA1E095C2DEE3C17F := by
  decide

/-- Vectors V-F1, V-F3, V-F5, V-F7, V-F8, V-F10, V-F14, V-F15, V-F16. -/
theorem test_lfsr_step :
    lfsrNext 0x94 8 0xB2 = 0x65 ∧ lfsrNext 0x94 8 0x32 = 0x65 ∧ lfsrNext 0x94 8 0xFF = 0xFF ∧
    lfsrNext 0x94 8 0x01 = 0x03 ∧ lfsrNext 0x3 4 0x8 = 0x1 ∧ lfsrNext 0 4 0xB = 0x6 ∧
    lfsrNext 0x1 64 0x8000000000000001 = 0x3 ∧ lfsrNext 0x8000000000000000 64 0x8000000000000001 = 0x3 ∧
    lfsrNext 0x8000000000000001 64 0x8000000000000001 = 0x2 := by decide

/-- Vector V-CL1. -/
theorem test_constructLcg_success :
    (nextOf (exec .constructLcg lcgOperands)).map (fun t => (t.statusWord, t.gM, t.gA, t.x)) =
      some (0x00000001#32, 24#16, 3, 5) := by decide

/-- Vector V-CL10: the generator is gone, the old result stays flagged. -/
theorem test_constructLcg_error :
    (nextOf (exec .constructLcg { lfsrGen with rValid := true })).map (fun t => t.statusWord) =
      some 0x00001104#32 := by decide

/-- Vector V-CF1. -/
theorem test_constructLfsr_success :
    (nextOf (exec .constructLfsr lfsrOperands)).map (fun t => (t.statusWord, t.gTaps, t.x)) =
      some (0x00000003#32, 0x94, 0xB2) := by decide

/-- Vector V-CF10: the taps are checked before the seed. -/
theorem test_constructLfsr_error :
    (nextOf (exec .constructLfsr { State.reset with opLen := 4#16, opTaps := 0x10, opSeed := 0x10 })).map
      (fun t => t.statusWord) = some 0x00005100#32 := by decide

/-- Vector V-N11: the repeated 101 is stepped to and not emitted. -/
theorem test_run_stop :
    (nextOf (exec (.run true false false) lfsrGen)).map
      (fun t => (t.statusWord, t.resLen, t.resPreperiod, t.x, t.out.map Prod.snd)) =
    some (0x00000007#32, 21, 21, 101, [101, 202, 149, 43, 87, 175, 95, 190, 124, 248, 240, 225, 194, 132,
      8, 17, 35, 70, 140, 25, 50]) := by decide

/-- Vector V-P11: projected collisions are not repeats, and `RES_PREPERIOD` is of the raw values. -/
theorem test_run_projected :
    (nextOf (exec (.run false true true)
      { lcgGen with gA := 5, gB := 3, gM := 4#16, gSeed := 0, opN := 20, opModulus := 4 })).map
      (fun t => (t.statusWord, t.resLen, t.resPreperiod, t.x, t.out.map Prod.snd)) =
    some (0x00000005#32, 20, 16, 4, [3, 2, 1, 0, 3, 2, 1, 0, 3, 2, 1, 0, 3, 2, 1, 0, 3, 2, 1, 0]) := by
  decide

/-! ### Host accesses -/

/-- A write to a read-only register is ignored, one to an operand register stored (vectors V-H1,
V-H2, V-H7). -/
theorem test_host_writes :
    (nextOf (step { State.reset with host := [.wr 0x04 24] })).map (fun t => t.opM) = some 24#16 ∧
    (nextOf (step { State.reset with host := [.wr 0x01 0xFFFFFFFF] })).map (fun t => t.statusWord) =
      some 0#32 ∧
    (nextOf (step { liveState with host := [.wr 0x0E 0] })).map (fun t => t.x) = some 7 := by decide

/-- Reads of `CMD`, `STATUS`, `OUT_DATA` within the result and `GEN_STATE` (vectors V-H3, V-H4, V-N4). -/
theorem test_host_reads :
    (nextOf (step { liveState with host := [.rd 0x00] })).map (fun t => t.readLog) = some [0] ∧
    (nextOf (step { liveState with host := [.rd 0x01] })).map (fun t => t.readLog) = some [0x5] ∧
    (nextOf (step { liveState with host := [.rd 0x0D] })).map (fun t => t.readLog) = some [7] ∧
    (nextOf (step { liveState with host := [.rd 0x0E] })).map (fun t => t.readLog) = some [7] := by
  decide

/-- A `RUN` word from reset is refused for want of a generator (95_test_vectors.md program 3). -/
theorem test_step_from_reset :
    (nextOf (step (State.reset.withFetchWord 32 0x002))).map (fun t => (t.statusWord, t.host)) =
      some (0x00003300#32, []) := by decide

/-- A read of `OUT_DATA` outside a result changes nothing of the block (10_state.md R33, 20_memory.md
R69). -/
theorem test_out_data_outside_result :
    (nextOf (step { liveState with outIdx := 1, host := [.rd 0x0D] })).map State.block =
      some ({ liveState with outIdx := 1 } : State).block := by decide

/-- Scenario C's operands as the pseudo-operations write them (30_encoding.md R98). -/
theorem test_pseudo_operations :
    constructLfsrProgram 8 [2, 4, 7] [true, false, true, true, false, false, true, false] =
      [.wr 0x05 8, .wr 0x06 0x94, .wr 0x07 0xB2, .wr 0x00 0x101] ∧
    runProgram 1000 false (some 2) true = [.wr 0x08 1000, .wr 0x09 2, .wr 0x00 0x602] ∧
    readResultProgram 2 =
      [.rd 0x01, .rd 0x0A, .rd 0x0B, .wr 0x0C 0, .rd 0x0D, .wr 0x0C 1, .rd 0x0D] := by decide

/-! ### Witnesses: the hypotheses of the statements can be met -/

theorem witness_DecodeIsInverseOfEncode : (Instr.run true true true).wf = true := by decide

/-- Each clause of IllegalWordsChangeOnlyTheReport, at the lowest and the highest reserved bit. -/
theorem witness_IllegalWordsChangeOnlyTheReport :
    (opc 0x00000000#32 ≠ 0x1#4 ∧ opc 0x00000000#32 ≠ 0x2#4) ∧
    (opc 0x00000011#32 = 0x1#4 ∧ (0x00000011#32).getLsbD 4 = true) ∧
    (opc 0x00000201#32 = 0x1#4 ∧ (0x00000201#32).getLsbD 9 = true) ∧
    (opc 0x80000001#32 = 0x1#4 ∧ (0x80000001#32).getLsbD 31 = true) ∧
    (opc 0x00000082#32 = 0x2#4 ∧ (0x00000082#32).getLsbD 7 = true) ∧
    (opc 0x00000802#32 = 0x2#4 ∧ (0x00000802#32).getLsbD 11 = true) ∧
    (decode 0x00000702#32 = .instr (.run true true true) ∧ State.reset.gValid = false) ∧
    ({ State.reset with host := [.wr 0 (0x00000011#32).toNat] } : State).host =
      [.wr 0 (0x00000011#32).toNat] := by decide

theorem witness_StepRunsTheDecodedCommand :
    (({ lfsrGen with host := [.wr 0 (0x102#32).toNat] } : State).host = [.wr 0 (0x102#32).toNat] ∧
      decode 0x102#32 = .instr (.run true false false)) ∧
    (0x102 < 2 ^ 32 ∧ decode (BitVec.ofNat 32 0x102) = .instr (.run true false false)) ∧
    State.reset.host = [] := by decide

theorem witness_WellFormedHostIsNeverStopped :
    ({ State.reset with
        host := [.wr 0x02 (2 ^ 64 - 1), .wr 0x00 0xFFFFFFFF, .reset, .rd 0x0D, .rd 0x0E] } : State).hostWf =
      true := by decide

theorem witness_StepKeepsTheBuild : nextOf (step State.reset) = some State.reset := by decide

theorem witness_ResetMeetsTheInvariant : Config.reference.Legal := by decide

/-- The invariant holds of a state with a generator and a result. -/
theorem liveState_inv : liveState.Inv where
  cfgLegal := by decide
  registersFit := by decide
  latchesFit := by decide
  reportLegal := .inl (by decide)
  outLegal := by
    refine ⟨by decide, fun k v h => ?_⟩
    have hk : k = 0 ∧ v = 7 := by
      simp only [liveState, OutBuffer.read] at h
      split at h
      · exact ⟨by assumption, (Option.some.inj h).symm⟩
      · cases h
    obtain ⟨rfl, rfl⟩ := hk
    decide
  generatorLegal := fun _ => by decide
  resultLegal := fun _ => by
    refine ⟨by decide, by decide, by decide, fun k h => ?_⟩
    have hk : k = 0 := by
      have : liveState.resLen = 1 := rfl
      omega
    subst hk
    decide

theorem witness_StepKeepsTheInvariant :
    liveState.Inv ∧ nextOf (step liveState) = some liveState := ⟨liveState_inv, by decide⟩

theorem witness_LcgStepIsTheRecurrence : lcgGen.gKind = .lcg := by decide

theorem witness_LcgWrappingDataPathAgrees : 64 ≤ 64 ∧ 1 ≤ 64 := by decide

theorem witness_LcgCornerCases : 2 ^ 24 - 1 < 2 ^ 24 := by decide

/-- Each clause of ConstructLcgMeaning, at its boundary. -/
theorem witness_ConstructLcgMeaning :
    (let s : State := { State.reset with opM := 4#16, opSeed := 15 };
      s.opM ≠ 0#16 ∧ s.opM.toNat ≤ s.cfg.W ∧ s.opSeed < 2 ^ s.opM.toNat) ∧
    (let s : State := { State.reset with opM := 64#16, opSeed := 2 ^ 64 - 1 };
      s.opM ≠ 0#16 ∧ s.opM.toNat ≤ s.cfg.W ∧ s.opSeed < 2 ^ s.opM.toNat) ∧
    State.reset.opM = 0#16 ∧
    (let s : State := { State.reset with opM := 65#16 };
      s.opM ≠ 0#16 ∧ s.cfg.W < s.opM.toNat) ∧
    (let s : State := { State.reset with opM := 4#16, opSeed := 16 };
      s.opM ≠ 0#16 ∧ s.opM.toNat ≤ s.cfg.W ∧ 2 ^ s.opM.toNat ≤ s.opSeed) := by decide

theorem witness_LfsrShiftBySequenceIndex : 1 ≤ 1 ∧ 1 ≤ 8 ∧ 6 + 1 < 8 := by decide

theorem witness_LfsrOldestBitDecidesInjectivity :
    ((0x94).testBit 0 = false ∧ ∀ j, j < 8 → 1 ≤ j → seqBit 8 0xB2 j = seqBit 8 0x32 j) ∧
    ((0x3).testBit 0 = true ∧ 15 < 2 ^ 4 ∧ lfsrNext 0x3 4 15 = lfsrNext 0x3 4 15) := by decide

/-- Vector V-S3's taps with index 0: registers 1, 2, 5, 10, 4, 8 and then 1 again. -/
theorem witness_LfsrWithOldestBitTappedIsPurelyPeriodic :
    let s : State := { lfsrGen with gLen := 4#16, gTaps := 0x5 };
    s.gKind = .lfsr ∧ s.gTaps.testBit 0 = true ∧ 8 < 2 ^ s.gLen.toNat ∧ s.FirstRepeat 8 6 := by
  unfold State.FirstRepeat State.RepeatAt
  decide

theorem witness_LfsrCornerCases : 1 < 2 := by decide

/-- Each clause of ConstructLfsrMeaning, at its boundary. -/
theorem witness_ConstructLfsrMeaning :
    (let s : State := { State.reset with opLen := 8#16, opTaps := 0x80, opSeed := 0xFF };
      s.opLen ≠ 0#16 ∧ s.opLen.toNat ≤ s.cfg.W ∧ s.opTaps >>> s.opLen.toNat = 0 ∧
      s.opSeed >>> s.opLen.toNat = 0) ∧
    State.reset.opLen = 0#16 ∧
    (let s : State := { State.reset with opLen := 65#16 };
      s.opLen ≠ 0#16 ∧ s.cfg.W < s.opLen.toNat) ∧
    (let s : State := { State.reset with opLen := 8#16, opTaps := 0x100 };
      s.opLen ≠ 0#16 ∧ s.opLen.toNat ≤ s.cfg.W ∧ s.opTaps >>> s.opLen.toNat ≠ 0) ∧
    (let s : State := { State.reset with opLen := 4#16, opTaps := 0x3, opSeed := 0x10 };
      s.opLen ≠ 0#16 ∧ s.opLen.toNat ≤ s.cfg.W ∧ s.opTaps >>> s.opLen.toNat = 0 ∧
      s.opSeed >>> s.opLen.toNat ≠ 0) := by decide

theorem witness_LfsrRangeChecksAreByIndex :
    (let s : State := { State.reset with opLen := 8#16, opTaps := 0x94, opSeed := 0x100 };
      1 ≤ s.opLen.toNat ∧ s.opLen.toNat ≤ s.cfg.W ∧ (nextOf (exec .constructLfsr s)).isSome ∧
      ∀ j, j < 64 → s.opTaps.testBit j = true → j < s.opLen.toNat) ∧
    (let s : State := { State.reset with opLen := 64#16, opTaps := 2 ^ 64 - 1, opSeed := 2 ^ 64 - 1 };
      1 ≤ s.opLen.toNat ∧ s.opLen.toNat = s.cfg.W ∧ s.RegistersFit ∧
      (nextOf (exec .constructLfsr s)).isSome) := by decide

/-- Each clause of RunEntryChecksInOrder, at its boundary. -/
theorem witness_RunEntryChecksInOrder :
    State.reset.gValid = false ∧
    (let s : State := { lcgGen with opN := 0 }; s.gValid = true ∧ s.opN = 0) ∧
    (let s : State := { lcgGen with opN := 65537 };
      s.gValid = true ∧ s.cfg.histDepth < s.opN ∧ s.opN ≠ 0) ∧
    (let s : State := { lcgGen with opN := 65536, opModulus := 0 };
      s.gValid = true ∧ s.opN ≠ 0 ∧ s.opN ≤ s.cfg.histDepth ∧ s.opModulus = 0) ∧
    ({ lcgGen with opN := 1, opModulus := 1 } : State).RunReady true ∧
    ({ lcgGen with opN := 65536, opModulus := 0 } : State).RunReady false := by decide

/-- Vector V-N6: the first repeat is at index 4, below the budget; vector V-N8: with a budget of 3
there is none. -/
theorem witness_StoppingRunEndsAtFirstRepeat :
    (lcgGen.RunReady false ∧ 4 < lcgGen.opN ∧ lcgGen.FirstRepeat (lcgGen.startOf true) 4) ∧
    (let s : State := { lcgGen with opN := 3 };
      s.RunReady false ∧ ∀ p, p < s.opN → ¬ s.RepeatAt (s.startOf true) p) := by
  unfold State.FirstRepeat State.RepeatAt
  decide

theorem witness_FullRunEmitsTheWholeBudget :
    (lcgGen.RunReady false ∧ 4 < lcgGen.opN ∧ lcgGen.FirstRepeat (lcgGen.startOf true) 4) ∧
    (let s : State := { lcgGen with opN := 4 };
      s.RunReady false ∧ ∀ p, p < s.opN → ¬ s.RepeatAt (s.startOf true) p) := by
  unfold State.FirstRepeat State.RepeatAt
  decide

theorem witness_RunResultBounds :
    ({ lcgGen with opModulus := 3 } : State).RunReady true ∧
    (nextOf (exec (.run true true false) { lcgGen with opModulus := 3 })).map (fun t => t.resLen) =
      some 4 ∧
    (nextOf (exec (.run false false false) lcgGen)).map (fun t => t.resLen) = some 5 := by decide

theorem witness_ProjectionChangesOnlyOut :
    lcgGen.RunReady false ∧ ({ lcgGen with opModulus := 3 } : State).RunReady true ∧
    (nextOf (exec (.run true false false) lcgGen)).isSome ∧
    (nextOf (exec (.run true true false) { lcgGen with opModulus := 3 })).isSome := by decide

theorem witness_ReseededRunsAreIdentical :
    let s' : State := { lcgGen with x := 200, rValid := true, resLen := 1, out := [(0, 9)], errKind := 1#2 };
    s'.cfg = lcgGen.cfg ∧ lcgGen.SameConfiguration s' ∧ s'.gValid = lcgGen.gValid ∧
    s'.opN = lcgGen.opN ∧ s'.opModulus = lcgGen.opModulus ∧ lcgGen.RunReady false ∧
    (nextOf (exec (.run true false true) lcgGen)).isSome ∧
    (nextOf (exec (.run true false true) s')).isSome := by decide

theorem witness_ReseededRunRepeatedChangesNothing :
    OutBuffer.wf liveState.out = true ∧ (nextOf (exec (.run true false true) liveState)).isSome := by
  decide

theorem witness_RunContinuesFromWhereTheLastLeftOff :
    lcgGen.RunReady false ∧ (nextOf (exec (.run false false true) lcgGen)).isSome ∧
    4 < lcgGen.opN ∧ lcgGen.FirstRepeat (lcgGen.startOf true) 4 ∧
    (nextOf (exec (.run true false true) lcgGen)).isSome := by
  unfold State.FirstRepeat State.RepeatAt
  decide

/-- A full budget, and a run that commits a result. -/
theorem witness_VisitedSetIsExactAndFits :
    ({ lcgGen with opN := 65536 } : State).RunReady false ∧
    (nextOf (exec (.run true false false) lcgGen)).map (fun t => t.rValid) = some true := by decide

theorem witness_PreperiodCountsDistinctValues :
    lcgGen.RunReady false ∧ (nextOf (exec (.run true false true) lcgGen)).isSome ∧
    (nextOf (exec (.run false false true) lcgGen)).isSome ∧
    lcgGen.FirstRepeat (lcgGen.startOf true) 4 ∧ 4 < lcgGen.opN := by
  unfold State.FirstRepeat State.RepeatAt
  decide

theorem witness_EveryCommandClearsTheReport :
    (nextOf (exec .constructLcg State.reset)).isSome ∧ ¬ State.reset.ChecksPass .constructLcg ∧
    lcgOperands.ChecksPass .constructLcg ∧ lfsrOperands.ChecksPass .constructLfsr ∧
    lcgGen.ChecksPass (.run true false false) ∧
    ¬ ({ lcgGen with opN := 0 } : State).ChecksPass (.run true false false) := by
  unfold State.ChecksPass
  decide

theorem witness_FailedCommandLeavesEverythingElse :
    decode 0x00000000#32 = .illegal .opcode ∧
    (nextOf (exec .constructLcg State.reset)).map (fun t => t.errKind) = some 1#2 ∧
    (nextOf (exec .constructLfsr State.reset)).map (fun t => t.errKind) = some 1#2 ∧
    (nextOf (exec (.run false false false) State.reset)).map (fun t => t.errKind) = some 3#2 := by
  decide

theorem witness_ErrorKindsByCommand :
    (nextOf (exec .constructLfsr State.reset)).map (fun t => t.errKind) = some 1#2 ∧
    (nextOf (exec (.run false false false) { lcgGen with opN := 0 })).map (fun t => t.errKind) =
      some 2#2 ∧
    (nextOf (exec (.run false false false) State.reset)).map (fun t => t.errKind) = some 3#2 := by
  decide

theorem witness_ConstructFrame :
    (nextOf (exec .constructLcg { lcgOperands with gLen := 9#16 })).map (fun t => t.gLen) = some 9#16 ∧
    (nextOf (exec .constructLfsr { lfsrOperands with gA := 9 })).map (fun t => t.gA) = some 9 ∧
    (nextOf (exec .constructLcg State.reset)).map (fun t => t.errKind) = some 1#2 := by decide

theorem witness_RunFrame :
    (nextOf (exec (.run true false false) lcgGen)).map (fun t => (t.rValid, t.resLen)) =
      some (true, 4) ∧
    (nextOf (exec (.run true false false) State.reset)).map (fun t => t.rValid) = some false := by decide

/-- A `RUN` word and an operand write, neither of which is a CONSTRUCT word. -/
theorem witness_ConfigurationIsImmutable :
    (HostEvent.wr 0 0x102 ≠ .reset ∧ HostEvent.wr 0 0x102 ≠ .wr 0 0x00000001 ∧
      HostEvent.wr 0 0x102 ≠ .wr 0 0x00000101 ∧
      (nextOf (step { lcgGen with host := [.wr 0 0x102] })).isSome) ∧
    (HostEvent.wr 2 0x1 ≠ .wr 0 0x00000001 ∧
      (nextOf (step { lcgGen with host := [.wr 2 0x1] })).isSome) := by decide

theorem witness_CommandsReadOnlyTheirOperands :
    (nextOf (exec .constructLcg lcgOperands)).isSome ∧ (nextOf (exec .constructLfsr lfsrOperands)).isSome ∧
    (nextOf (exec (.run true false false) lcgGen)).isSome ∧
    (nextOf (exec (.run true true false) lcgGen)).isSome := by decide

theorem witness_RunAfterFailedConstructIsRefused :
    (nextOf (exec .constructLcg State.reset)).map (fun t => t.errKind) = some 1#2 ∧
    (nextOf (exec .constructLfsr lfsrOperands)).map (fun t => t.errKind) = some 0#2 := by decide

/-- The largest value of each width of HostWriteByRegister in the reference build, and the first
unassigned number. -/
theorem witness_HostWriteByRegister :
    0xFFFFFFFF < 2 ^ 32 ∧ 2 ^ 64 - 1 < 2 ^ Config.reference.W ∧ 0xFFFF < 2 ^ 16 ∧
    2 ^ 32 - 1 < 2 ^ Config.reference.cntW ∧ 0x0F ≤ 0x0F ∧
    ({ State.reset with host := [.wr 0x0C 1] } : State).host = [.wr 0x0C 1] := by decide

/-- Each clause of HostReadByRegister on `OUT_DATA`: within a result, past its end, and without one. -/
theorem witness_HostReadByRegister :
    (liveState.rValid = true ∧ liveState.outIdx < liveState.resLen ∧
      OutBuffer.read liveState.out liveState.outIdx = some 7) ∧
    (let s : State := { liveState with outIdx := 1 }; s.resLen ≤ s.outIdx) ∧
    lcgGen.rValid = false ∧ 0x0E < 0x0F ∧
    ({ State.reset with host := [.rd 0x0D] } : State).host = [.rd 0x0D] := by decide

theorem witness_UnassignedRegistersAreRefused :
    0x0F ≤ 0x0F ∧ ({ State.reset with host := [.rd 0x0F] } : State).host = [.rd 0x0F] ∧
    ({ State.reset with host := [.wr 0x0F 0] } : State).host = [.wr 0x0F 0] := by decide

theorem witness_StatusFieldsAndReservedBits :
    ((3 ≤ 7 ∧ 7 ≤ 7) ∧ (10 ≤ 11 ∧ 11 ≤ 11) ∧ 16 ≤ 31) ∧ ¬ (16 ≤ 15) := by decide

/-- Two reads of `OUT_DATA`, within a result and outside it. -/
theorem witness_ReadsAreIdempotent :
    (nextOf (step { liveState with host := [.rd 0x0D, .rd 0x0D] })).map (fun t => t.host) =
      some [.rd 0x0D] ∧
    (nextOf (step { liveState with readLog := [7], host := [.rd 0x0D] })).map (fun t => t.readLog) =
      some [7, 7] ∧
    (nextOf (step { lcgGen with host := [.rd 0x0D, .rd 0x0D] })).map (fun t => t.host) =
      some [.rd 0x0D] := by decide

theorem witness_ResetEventClearsFlagsAndReport :
    ({ liveState with host := [.reset] } : State).host = [.reset] ∧
    (nextOf (step { liveState with host := [.reset] })).map (fun t => (t.gValid, t.rValid, t.draws)) =
      some (false, false, 19) := by decide

theorem witness_FirstCommandsAfterReset :
    (nextOf (step { liveState with host := [.reset] })).isSome ∧ 24#16 ≠ 0#16 ∧
    (24#16).toNat ≤ liveState.cfg.W ∧ 5 < 2 ^ (24#16).toNat ∧ (8#16).toNat ≤ liveState.cfg.W ∧
    0x94 < 2 ^ (8#16).toNat ∧ 0xB2 < 2 ^ (8#16).toNat := by decide

theorem witness_PseudoOperationOperands : 7 < [true, false, true, true, false, false, true, false].length := by
  decide

end Sys2Proof.Tests
end

section
/-! PROOFS. The commands and the step as inversion lemmas, and what they keep. -/

namespace Sys2Proof.Machine

/-! ### The checks of the two CONSTRUCTs -/

/-- A shift by `n` bits leaves something iff the value needs more than `n` bits. -/
theorem shiftRight_ne_zero_iff (v n : Nat) : v >>> n ≠ 0 ↔ 2 ^ n ≤ v := by
  rw [Nat.shiftRight_eq_div_pow, ne_eq, Nat.div_eq_zero_iff_lt (Nat.two_pow_pos n), Nat.not_lt]

/-- A value has a bit set at or above index `n` iff it is at least `2^n`. -/
theorem two_pow_le_iff_exists_testBit (v n : Nat) :
    2 ^ n ≤ v ↔ ∃ j, n ≤ j ∧ v.testBit j = true := by
  constructor
  · exact Nat.exists_ge_and_testBit_of_ge_two_pow
  · rintro ⟨j, hnj, hj⟩
    exact (Nat.pow_le_pow_right (by decide) hnj).trans (Nat.ge_two_pow_of_testBit hj)

/-- The checks of `CONSTRUCT.LCG` raise nothing iff size and seed are in range (40_lcg_engine.md
R124). -/
theorem lcgError_eq_none_iff (s : State) : s.lcgError = none ↔ s.ChecksPass .constructLcg := by
  have hzero : s.opM = 0#16 ↔ s.opM.toNat = 0 := by bv_omega
  unfold State.lcgError State.ChecksPass
  simp only [hzero]
  split_ifs <;> simp only [false_iff, true_iff] <;> omega

/-- With a legal length, only the taps and then the seed are left to check (41_lfsr_engine.md
R147). -/
theorem lfsrError_of_length_legal {s : State} (hpos : 1 ≤ s.opLen.toNat)
    (hle : s.opLen.toNat ≤ s.cfg.W) :
    s.lfsrError =
      if 2 ^ s.opLen.toNat ≤ s.opTaps then some .ceTapRange
      else if 2 ^ s.opLen.toNat ≤ s.opSeed then some .ceSeedRange
      else none := by
  have hzero : s.opLen ≠ 0#16 := by bv_omega
  simp only [State.lfsrError, if_neg hzero, if_neg (Nat.not_lt.2 hle), shiftRight_ne_zero_iff]

/-- The checks of `CONSTRUCT.LFSR` raise nothing iff length, taps and seed are in range
(41_lfsr_engine.md R147). -/
theorem lfsrError_eq_none_iff (s : State) : s.lfsrError = none ↔ s.ChecksPass .constructLfsr := by
  have hzero : s.opLen = 0#16 ↔ s.opLen.toNat = 0 := by bv_omega
  unfold State.lfsrError State.ChecksPass
  simp only [hzero, shiftRight_ne_zero_iff]
  split_ifs <;> simp only [false_iff, true_iff] <;> omega

/-! ### What a command that answers a next state has done -/

/-- `CONSTRUCT.LCG` raised the first error that applies, or its checks pass and it latched. -/
theorem exec_constructLcg_next {s t : State} (h : exec .constructLcg s = .next t) :
    (∃ e, s.lcgError = some e ∧ t = s.dropGenerator.raise e) ∨
      (s.lcgError = none ∧ t = s.clearError.latchLcg) := by
  rw [exec_constructLcg_eq] at h
  cases he : s.lcgError with
  | some e => exact .inl ⟨e, rfl, by simpa [he] using h.symm⟩
  | none => exact .inr ⟨rfl, by simpa [he] using h.symm⟩

/-- `CONSTRUCT.LFSR` raised the first error that applies, or its checks pass and it latched. -/
theorem exec_constructLfsr_next {s t : State} (h : exec .constructLfsr s = .next t) :
    (∃ e, s.lfsrError = some e ∧ t = s.dropGenerator.raise e) ∨
      (s.lfsrError = none ∧ t = s.clearError.latchLfsr) := by
  rw [exec_constructLfsr_eq] at h
  cases he : s.lfsrError with
  | some e => exact .inl ⟨e, rfl, by simpa [he] using h.symm⟩
  | none => exact .inr ⟨rfl, by simpa [he] using h.symm⟩

/-- `RUN` raised the first entry error that applies, or its checks pass and it committed what the
loop leaves. -/
theorem exec_run_next {stop moden reseed : Bool} {s t : State}
    (h : exec (.run stop moden reseed) s = .next t) :
    (∃ e, s.runError moden = some e ∧ t = s.dropResult.raise e) ∨
      (s.RunReady moden ∧ t = s.clearError.commitRun
        (s.runLoop stop (s.modulusOf moden) s.opN (s.runStart reseed))) := by
  rw [exec_run_eq] at h
  cases he : s.runError moden with
  | some e => exact .inl ⟨e, rfl, by simpa [he] using h.symm⟩
  | none => exact .inr ⟨(runError_eq_none_iff moden s).1 he, by simpa [he] using h.symm⟩

/-- What every operation a step is made of keeps, the step keeps: taking an access off the host's
list, a command, the report of an illegal word, a register write, a read and the reset event. -/
theorem step_keeps {P : State → Prop}
    (hhost : ∀ u rest, P u → P { u with host := rest })
    (hexec : ∀ i u t, P u → exec i u = .next t → P t)
    (hraise : ∀ e u, P u → P (u.raise e))
    (hwrite : ∀ r v u, P u → v < 2 ^ r.width u.cfg → P (u.writeReg r v))
    (hread : ∀ r u, P u → P (u.logRead r))
    (hreset : ∀ u, P u → P u.resetEvent)
    {s t : State} (hs : P s) (h : step s = .next t) : P t := by
  obtain ⟨-, rfl⟩ | ⟨e, rest, -, hevent⟩ := step_next h
  · exact hs
  have hrest := hhost s rest hs
  obtain ⟨n, v, -, hw⟩ | ⟨n, -, hr⟩ | ⟨-, rfl⟩ := hevent
  · obtain ⟨r, -, hv, ⟨-, hcmd⟩ | ⟨-, rfl⟩⟩ := hostWrite_next hw
    · cases hd : decode (BitVec.ofNat 32 v) with
      | instr i =>
        rw [execute_instr _ hd] at hcmd
        exact hexec i _ _ hrest hcmd
      | illegal why =>
        rw [execute_illegal _ hd] at hcmd
        cases hcmd
        exact hraise _ _ hrest
    · exact hwrite r v _ hrest hv
  · obtain ⟨r, -, rfl⟩ := hostRead_next hr
    exact hread r _ hrest
  · exact hreset _ hrest

/-! ### The build -/

/-- No command changes the build (10_state.md R40). -/
theorem exec_cfg {i : Instr} {s t : State} (h : exec i s = .next t) : t.cfg = s.cfg := by
  cases i with
  | constructLcg => obtain ⟨e, -, rfl⟩ | ⟨-, rfl⟩ := exec_constructLcg_next h <;> simp
  | constructLfsr => obtain ⟨e, -, rfl⟩ | ⟨-, rfl⟩ := exec_constructLfsr_next h <;> simp
  | run stop moden reseed => obtain ⟨e, -, rfl⟩ | ⟨-, rfl⟩ := exec_run_next h <;> simp

@[simp] theorem State.resetEvent_cfg (s : State) : s.resetEvent.cfg = s.cfg := rfl

/-! ### The words of commands -/

/-- Two words are the same when their opcode fields are, their bits under a mask are, and the bits
above the opcode that the mask leaves out are. -/
theorem cmdWord_eq_of_fields {c d : CmdWord} (mask : CmdWord) (hopc : opc c = opc d)
    (hmask : c &&& mask = d &&& mask)
    (hflags : ∀ k < 32, 4 ≤ k → mask.getLsbD k = false → c.getLsbD k = d.getLsbD k) : c = d := by
  refine BitVec.eq_of_getLsbD_eq fun k hk => ?_
  by_cases hlow : k < 4
  · simpa [opc, hlow] using congrArg (BitVec.getLsbD · k) hopc
  · cases hm : mask.getLsbD k with
    | false => exact hflags k hk (Nat.not_lt.1 hlow) hm
    | true => simpa [hm] using congrArg (BitVec.getLsbD · k) hmask

/-- Format `C` reserves every bit above the opcode but `KIND` (30_encoding.md R90). -/
theorem reservedC_flags : ∀ k < 32, 4 ≤ k → reservedC.getLsbD k = false → k = 8 := by decide

/-- Format `N` reserves every bit above the opcode but `STOP`, `MODEN` and `RESEED`
(30_encoding.md R90). -/
theorem reservedN_flags :
    ∀ k < 32, 4 ≤ k → reservedN.getLsbD k = false → k = 8 ∨ k = 9 ∨ k = 10 := by decide

/-- The fields of the word of a `RUN` (30_encoding.md R90, R94). -/
theorem encode_run_fields : ∀ stop moden reseed : Bool,
    opc (encode (.run stop moden reseed)) = 0x2#4 ∧
    encode (.run stop moden reseed) &&& reservedN = 0#32 ∧
    (encode (.run stop moden reseed)).getLsbD 8 = stop ∧
    (encode (.run stop moden reseed)).getLsbD 9 = moden ∧
    (encode (.run stop moden reseed)).getLsbD 10 = reseed := by decide

/-- A word of format `C` without reserved bits is determined by `KIND`. -/
theorem cmdWord_eq_of_formatC {c d : CmdWord} (hc : opc c = 0x1#4) (hd : opc d = 0x1#4)
    (hrc : c &&& reservedC = 0#32) (hrd : d &&& reservedC = 0#32)
    (hkind : c.getLsbD 8 = d.getLsbD 8) : c = d :=
  cmdWord_eq_of_fields reservedC (hc.trans hd.symm) (hrc.trans hrd.symm) fun k hk h4 hm => by
    rw [reservedC_flags k hk h4 hm, hkind]

/-- The only word that decodes to a command is the command's encoding (30_encoding.md R94, R99). -/
theorem eq_encode_of_decode {c : CmdWord} {i : Instr} (h : decode c = .instr i) : c = encode i := by
  unfold decode at h
  split_ifs at h with hopc hres hkind hrun hres <;> cases h
  · exact cmdWord_eq_of_formatC hopc rfl (not_not.1 hres) rfl hkind
  · exact cmdWord_eq_of_formatC hopc rfl (not_not.1 hres) rfl (Bool.not_eq_true _ ▸ hkind)
  · obtain ⟨ho, hr, h8, h9, h10⟩ :=
      encode_run_fields (c.getLsbD 8) (c.getLsbD 9) (c.getLsbD 10)
    refine cmdWord_eq_of_fields reservedN (hrun.trans ho.symm)
      ((not_not.1 hres).trans hr.symm) fun k hk h4 hm => ?_
    obtain rfl | rfl | rfl := reservedN_flags k hk h4 hm
    exacts [h8.symm, h9.symm, h10.symm]

end Sys2Proof.Machine
end

section
/-! PROOFS. The invariant: what the run loop keeps of its working variables, and what every operation
a step is made of keeps of the state. -/

namespace Sys2Proof.Machine

/-! ### The run loop -/

/-- The engine's new state has the size of the generator (10_state.md R29). -/
theorem engineStep_lt (s : State) (x : Nat) : s.engineStep x < 2 ^ s.stateBits := by
  unfold State.engineStep State.stateBits
  cases s.gKind with
  | lcg => exact lcgNext_lt _ _ _ _
  | lfsr => exact lfsrNext_lt _ _ _

/-- What every round of a run from `s` keeps: `X` in the generator's range, a recorded index between
1 and the number of values emitted, and `OUT` canonical, its entries `W`-bit values at indices that
were emitted or lie below `HIST_DEPTH`, and every emitted index listed. -/
structure RunVars.Legal (s : State) (v : RunVars) : Prop where
  xInRange : v.x < 2 ^ s.stateBits
  indexIsLen : v.i = v.len
  visitedIsEmitted : v.visited ≠ [] → 1 ≤ v.len
  preInRange : v.pset = true → 1 ≤ v.pre ∧ v.pre ≤ v.len
  outCanonical : OutBuffer.wf v.out = true
  outEntries : ∀ k w, OutBuffer.read v.out k = some w →
    (k < v.len ∨ k < s.cfg.histDepth) ∧ Fits s.cfg.W w
  emittedListed : ∀ k, k < v.len → (OutBuffer.read v.out k).isSome = true

/-- The engine step and the recording of a first repeat keep it: a repeat has an earlier value. -/
theorem RunVars.Legal.detect {s : State} {v : RunVars} (h : v.Legal s) (x : Nat) :
    (v.detect (s.engineStep x)).Legal s where
  xInRange := by simpa using engineStep_lt s x
  indexIsLen := by simpa using h.indexIsLen
  visitedIsEmitted := by simpa using h.visitedIsEmitted
  preInRange := by
    intro hset
    simp only [RunVars.detect_pre, RunVars.detect_len]
    split
    · next hrepeat =>
      obtain ⟨hseen, -⟩ := hrepeat
      have hlen := h.visitedIsEmitted (List.ne_nil_of_mem ((histContains_iff _ _).1 hseen))
      rw [h.indexIsLen]
      exact ⟨hlen, le_rfl⟩
    · next hrepeat =>
      refine h.preInRange ?_
      cases hp : v.pset with
      | true => rfl
      | false => exact absurd ⟨by simpa [hp] using hset, hp⟩ hrepeat
  outCanonical := by simpa using h.outCanonical
  outEntries := by simpa using h.outEntries
  emittedListed := by simpa using h.emittedListed

/-- The rest of a round keeps it: the entry written is the projection of a value of the engine. -/
theorem RunVars.Legal.emit {s : State} {v : RunVars} (h : v.Legal s) (q : Option Nat) {raw : Nat}
    (hraw : Fits s.cfg.W raw) : (v.emit q raw).Legal s where
  xInRange := h.xInRange
  indexIsLen := congrArg (· + 1) h.indexIsLen
  visitedIsEmitted := fun _ => Nat.succ_pos _
  preInRange := fun hset => (h.preInRange hset).imp_right Nat.le_succ_of_le
  outCanonical := OutBuffer.write_wf _ _ h.outCanonical
  outEntries := by
    intro k w hread
    simp only [RunVars.emit_out, RunVars.emit_len] at hread ⊢
    by_cases hk : k = v.len
    · rw [hk, OutBuffer.read_write_same] at hread
      cases hread
      exact ⟨.inl (by omega), (project_le q raw).trans_lt hraw⟩
    · rw [OutBuffer.read_write_ne _ _ hk] at hread
      exact (h.outEntries k w hread).imp_left fun hlt => hlt.imp_left Nat.lt_succ_of_lt
  emittedListed := by
    intro k hlt
    simp only [RunVars.emit_out, RunVars.emit_len] at hlt ⊢
    by_cases hk : k = v.len
    · simp [hk]
    · rw [OutBuffer.read_write_ne _ _ hk]
      exact h.emittedListed k (by omega)

/-- The variables at the start of a run of a legal generator are legal. -/
theorem runStart_legal {s : State} (h : s.Inv) (hg : s.gValid = true) (reseed : Bool) :
    (s.runStart reseed).Legal s where
  xInRange := by
    obtain ⟨-, -, hx, hseed, -⟩ := h.generatorLegal hg
    cases reseed with
    | true => exact hseed
    | false => exact hx
  indexIsLen := rfl
  visitedIsEmitted := fun hne => absurd rfl hne
  preInRange := nofun
  outCanonical := h.outLegal.1
  outEntries := fun k w hread => (h.outLegal.2 k w hread).imp_left .inr
  emittedListed := nofun

/-- The loop leaves legal variables. -/
theorem runLoop_legal {s : State} (hbits : s.stateBits ≤ s.cfg.W) (stop : Bool) (q : Option Nat)
    (n : Nat) {v : RunVars} (h : v.Legal s) : (s.runLoop stop q n v).Legal s := by
  refine runLoop_induct (RunVars.Legal s) (fun v hv _ => hv.detect v.x) (fun v hv => ?_) n v h
  have hraw := (engineStep_lt s v.x).trans_le (Nat.pow_le_pow_right (by decide) hbits)
  exact (hv.detect v.x).emit q hraw

/-- A run emits at most one value a round. -/
theorem runLoop_len_le (stop : Bool) (q : Option Nat) (s : State) (n : Nat) (v : RunVars) :
    (s.runLoop stop q n v).len ≤ v.len + n := by
  induction n generalizing v with
  | zero => rfl
  | succ n ih =>
    simp only [State.runLoop]
    split
    · simp
    · refine (ih _).trans_eq ?_
      simp only [RunVars.emit_len, RunVars.detect_len]
      omega

/-- Rounds never take back a value emitted. -/
theorem le_runLoop_len (stop : Bool) (q : Option Nat) (s : State) (n : Nat) (v : RunVars) :
    v.len ≤ (s.runLoop stop q n v).len :=
  runLoop_induct (fun u => v.len ≤ u.len) (fun u hu _ => by simpa using hu)
    (fun u hu => by simpa using Nat.le_succ_of_le hu) n v le_rfl

/-- A run with a budget emits a value: nothing is visited yet in its first round. -/
theorem runLoop_runStart_len_pos {stop reseed : Bool} {q : Option Nat} {s : State} {n : Nat}
    (hn : 1 ≤ n) : 1 ≤ (s.runLoop stop q n (s.runStart reseed)).len := by
  obtain ⟨m, rfl⟩ := Nat.exists_eq_add_of_le' hn
  rw [runLoop_go (.inr (by simp [State.runStart]))]
  exact le_trans (by simp) (le_runLoop_len stop q s m _)

/-! ### The operations a step is made of -/

theorem State.Inv.withHost {s : State} (h : s.Inv) (rest : List HostEvent) :
    ({ s with host := rest } : State).Inv := { h with }

theorem State.Inv.clearError {s : State} (h : s.Inv) : s.clearError.Inv :=
  { h with reportLegal := .inl ⟨rfl, rfl⟩ }

theorem State.Inv.raise {s : State} (h : s.Inv) (e : ErrorCause) : (s.raise e).Inv :=
  { h with reportLegal := .inr ⟨e, rfl, rfl⟩ }

theorem State.Inv.dropGenerator {s : State} (h : s.Inv) : s.dropGenerator.Inv :=
  { h with generatorLegal := nofun }

theorem State.Inv.dropResult {s : State} (h : s.Inv) : s.dropResult.Inv :=
  { h with resultLegal := nofun }

theorem State.Inv.logRead {s : State} (h : s.Inv) (r : Reg) : (s.logRead r).Inv := { h with }

/-- A CONSTRUCT whose checks pass latches a legal LCG. -/
theorem State.Inv.latchLcg {s : State} (h : s.Inv) (hc : s.ChecksPass .constructLcg) :
    s.latchLcg.Inv := by
  obtain ⟨hA, hB, -, hSeed, -⟩ := h.registersFit
  obtain ⟨-, -, hTaps, -, -⟩ := h.latchesFit
  obtain ⟨hpos, hle, hseed⟩ := hc
  exact { h with
    latchesFit := ⟨hA, hB, hTaps, hSeed, hSeed⟩
    generatorLegal := fun _ => ⟨hpos, hle, hseed, hseed, nofun⟩ }

/-- A CONSTRUCT whose checks pass latches a legal LFSR. -/
theorem State.Inv.latchLfsr {s : State} (h : s.Inv) (hc : s.ChecksPass .constructLfsr) :
    s.latchLfsr.Inv := by
  obtain ⟨-, -, hTaps, hSeed, -⟩ := h.registersFit
  obtain ⟨hA, hB, -, -, -⟩ := h.latchesFit
  obtain ⟨hpos, hle, htaps, hseed⟩ := hc
  exact { h with
    latchesFit := ⟨hA, hB, hTaps, hSeed, hSeed⟩
    generatorLegal := fun _ => ⟨hpos, hle, hseed, hseed, fun _ => htaps⟩ }

/-- A recorded index or the number of values: `RES_PREPERIOD` lies between 1 and `RES_LEN`. -/
theorem RunVars.Legal.preperiod_mem {s : State} {v : RunVars} (h : v.Legal s) (hlen : 1 ≤ v.len) :
    1 ≤ v.preperiod ∧ v.preperiod ≤ v.len := by
  unfold RunVars.preperiod
  split
  · next hset => exact h.preInRange hset
  · exact ⟨hlen, le_rfl⟩

/-- Committing legal variables with between 1 and `HIST_DEPTH` values keeps the invariant. -/
theorem State.Inv.commitRun {s : State} (h : s.Inv) (hg : s.gValid = true) {v : RunVars}
    (hv : v.Legal s) (hpos : 1 ≤ v.len) (hcap : v.len ≤ s.cfg.histDepth) :
    (s.commitRun v).Inv := by
  obtain ⟨hA, hB, hTaps, hSeed, hN, hModulus, hIdx, -, -⟩ := h.registersFit
  obtain ⟨hgA, hgB, hgTaps, hgSeed, -⟩ := h.latchesFit
  obtain ⟨hbitsPos, hbits, -, hseed, htaps⟩ := h.generatorLegal hg
  obtain ⟨-, -, -, -, hdepth⟩ := h.cfgLegal
  obtain ⟨hprePos, hpre⟩ := hv.preperiod_mem hpos
  have hlenFits : Fits s.cfg.cntW v.len :=
    (hcap.trans hdepth).trans_lt (Nat.sub_one_lt (Nat.two_pow_pos _).ne')
  exact { h with
    registersFit := ⟨hA, hB, hTaps, hSeed, hN, hModulus, hIdx, hpre.trans_lt hlenFits, hlenFits⟩
    latchesFit := ⟨hgA, hgB, hgTaps, hgSeed,
      hv.xInRange.trans_le (Nat.pow_le_pow_right (by decide) hbits)⟩
    outLegal := ⟨hv.outCanonical, fun k w hread =>
      (hv.outEntries k w hread).imp_left fun hk => hk.elim (·.trans_le hcap) id⟩
    generatorLegal := fun _ => ⟨hbitsPos, hbits, hv.xInRange, hseed, htaps⟩
    resultLegal := fun _ => ⟨hprePos, hpre, hcap, hv.emittedListed⟩ }

/-- A run whose entry checks pass keeps the invariant. -/
theorem State.Inv.commitRunLoop {s : State} (h : s.Inv) {moden : Bool} (hr : s.RunReady moden)
    (stop reseed : Bool) (q : Option Nat) :
    (s.commitRun (s.runLoop stop q s.opN (s.runStart reseed))).Inv := by
  obtain ⟨hg, hpos, hcap, -⟩ := hr
  obtain ⟨-, hbits, -, -, -⟩ := h.generatorLegal hg
  have hlegal := runLoop_legal hbits stop q s.opN (runStart_legal h hg reseed)
  have hlen : (s.runLoop stop q s.opN (s.runStart reseed)).len ≤ s.opN := by
    simpa [State.runStart] using runLoop_len_le stop q s s.opN (s.runStart reseed)
  exact h.commitRun hg hlegal (runLoop_runStart_len_pos hpos) (hlen.trans hcap)

/-- Every command keeps the invariant. -/
theorem exec_inv {i : Instr} {s t : State} (hs : s.Inv) (h : exec i s = .next t) : t.Inv := by
  cases i with
  | constructLcg =>
    obtain ⟨e, -, rfl⟩ | ⟨hok, rfl⟩ := exec_constructLcg_next h
    · exact hs.dropGenerator.raise e
    · exact hs.clearError.latchLcg ((lcgError_eq_none_iff s).1 hok)
  | constructLfsr =>
    obtain ⟨e, -, rfl⟩ | ⟨hok, rfl⟩ := exec_constructLfsr_next h
    · exact hs.dropGenerator.raise e
    · exact hs.clearError.latchLfsr ((lfsrError_eq_none_iff s).1 hok)
  | run stop moden reseed =>
    obtain ⟨e, -, rfl⟩ | ⟨hready, rfl⟩ := exec_run_next h
    · exact hs.dropResult.raise e
    · exact (hs.commitRunLoop hready stop reseed (s.modulusOf moden)).clearError

/-- A write of a value of the register's width keeps the invariant. -/
theorem State.Inv.writeReg {s : State} (h : s.Inv) {r : Reg} {v : Nat}
    (hv : v < 2 ^ r.width s.cfg) : (s.writeReg r v).Inv := by
  obtain ⟨hA, hB, hTaps, hSeed, hN, hModulus, hIdx, hPre, hLen⟩ := h.registersFit
  cases r with
  | cmd | status | resPreperiod | resLen | outData | genState | opM | opLen => exact { h with }
  | opA => exact { h with registersFit := ⟨hv, hB, hTaps, hSeed, hN, hModulus, hIdx, hPre, hLen⟩ }
  | opB => exact { h with registersFit := ⟨hA, hv, hTaps, hSeed, hN, hModulus, hIdx, hPre, hLen⟩ }
  | opTaps => exact { h with registersFit := ⟨hA, hB, hv, hSeed, hN, hModulus, hIdx, hPre, hLen⟩ }
  | opSeed => exact { h with registersFit := ⟨hA, hB, hTaps, hv, hN, hModulus, hIdx, hPre, hLen⟩ }
  | opN => exact { h with registersFit := ⟨hA, hB, hTaps, hSeed, hv, hModulus, hIdx, hPre, hLen⟩ }
  | opModulus => exact { h with registersFit := ⟨hA, hB, hTaps, hSeed, hN, hv, hIdx, hPre, hLen⟩ }
  | outIdx => exact { h with registersFit := ⟨hA, hB, hTaps, hSeed, hN, hModulus, hv, hPre, hLen⟩ }

/-- A free value has the width it was cut to (log entry 6). -/
theorem State.free_fits (s : State) (n k : Nat) : Fits n (s.free n k) :=
  Nat.mod_lt _ (Nat.two_pow_pos n)

/-- The reset event asks only for a legal build (10_state.md R41). -/
theorem resetEvent_inv {s : State} (h : s.cfg.Legal) : s.resetEvent.Inv where
  cfgLegal := h
  registersFit := by refine ⟨?_, ?_, ?_, ?_, ?_, ?_, ?_, ?_, ?_⟩ <;> exact s.free_fits _ _
  latchesFit := by refine ⟨?_, ?_, ?_, ?_, ?_⟩ <;> exact s.free_fits _ _
  reportLegal := .inl ⟨rfl, rfl⟩
  outLegal := ⟨rfl, nofun⟩
  generatorLegal := nofun
  resultLegal := nofun

/-- The state after reset asks only for a legal build (10_state.md R41). -/
theorem resetOf_inv {c : Config} (h : c.Legal) : (State.resetOf c).Inv where
  cfgLegal := h
  registersFit := by
    have hW : Fits c.W 0 := Nat.two_pow_pos _
    have hcnt : Fits c.cntW 0 := Nat.two_pow_pos _
    exact ⟨hW, hW, hW, hW, hcnt, hW, hcnt, hcnt, hcnt⟩
  latchesFit := by
    have hW : Fits c.W 0 := Nat.two_pow_pos _
    exact ⟨hW, hW, hW, hW, hW⟩
  reportLegal := .inl ⟨rfl, rfl⟩
  outLegal := ⟨rfl, nofun⟩
  generatorLegal := nofun
  resultLegal := nofun

/-- Settles O10: every operation a step is made of keeps the invariant; for a `RUN` it follows from
the invariant `RunVars.Legal` of its loop. -/
theorem stepKeepsTheInvariant : Obligations.StepKeepsTheInvariant := fun _ _ hs h =>
  step_keeps (P := State.Inv) (fun _ rest hu => hu.withHost rest) (fun _ _ _ hu => exec_inv hu)
    (fun e _ hu => hu.raise e) (fun _ _ _ hu hv => hu.writeReg hv) (fun r _ hu => hu.logRead r)
    (fun _ hu => resetEvent_inv hu.cfgLegal) hs h

/-- Settles O9: the zeros fit every width, and there is no generator and no result to speak of. -/
theorem resetMeetsTheInvariant : Obligations.ResetMeetsTheInvariant :=
  ⟨fun _ => resetOf_inv, resetOf_inv (by decide)⟩

end Sys2Proof.Machine
end

section
/-! PROOFS. The build, the latched configuration, the range checks of `CONSTRUCT.LFSR`, `STATUS` and
the reset event. -/

namespace Sys2Proof.Machine

/-! ### The build and the latched configuration -/

/-- Settles O8: no operation a step is made of writes the build. -/
theorem stepKeepsTheBuild : Obligations.StepKeepsTheBuild := fun s _ h =>
  step_keeps (P := fun u => u.cfg = s.cfg) (fun _ _ hu => hu)
    (fun _ _ _ hu he => (exec_cfg he).trans hu) (fun _ _ hu => hu)
    (fun r v u hu _ => (u.writeReg_cfg r v).trans hu) (fun _ _ hu => hu) (fun _ hu => hu) rfl h

/-- A `RUN` leaves the latched configuration as it was (10_state.md R30). -/
theorem exec_run_sameConfiguration {stop moden reseed : Bool} {s t : State}
    (h : exec (.run stop moden reseed) s = .next t) : s.SameConfiguration t := by
  obtain ⟨e, -, rfl⟩ | ⟨-, rfl⟩ := exec_run_next h <;> simp [State.SameConfiguration]

/-- A word that is no CONSTRUCT leaves the latched configuration as it was (10_state.md R30). -/
theorem execute_sameConfiguration {c : CmdWord} {s t : State} (hlcg : c ≠ 0x00000001#32)
    (hlfsr : c ≠ 0x00000101#32) (h : execute c s = .next t) : s.SameConfiguration t := by
  cases hd : decode c with
  | illegal why =>
    rw [execute_illegal s hd] at h
    cases h
    simp [State.SameConfiguration]
  | instr i =>
    rw [execute_instr s hd] at h
    cases i with
    | constructLcg => exact absurd (eq_encode_of_decode hd) hlcg
    | constructLfsr => exact absurd (eq_encode_of_decode hd) hlfsr
    | run stop moden reseed => exact exec_run_sameConfiguration h

/-- The register a number stands for has that number (10_state.md R21). -/
theorem number_of_ofNumber {n : Nat} {r : Reg} (h : Reg.ofNumber n = some r) : r.number = n := by
  unfold Reg.ofNumber at h
  split at h <;> cases h <;> rfl

/-- A host write that is not of a CONSTRUCT word to `CMD` leaves the latched configuration as it was
(10_state.md R30). -/
theorem hostWrite_sameConfiguration {n v : Nat} {s t : State}
    (hlcg : ¬ (n = 0 ∧ v = 0x00000001)) (hlfsr : ¬ (n = 0 ∧ v = 0x00000101))
    (h : hostWrite n v s = .next t) : s.SameConfiguration t := by
  obtain ⟨r, hr, hv, ⟨rfl, hcmd⟩ | ⟨-, rfl⟩⟩ := hostWrite_next h
  · have hn : n = 0 := (number_of_ofNumber hr).symm
    have hv32 : v < 2 ^ 32 := hv
    have hne1 : v ≠ 0x00000001 := fun hv1 => hlcg ⟨hn, hv1⟩
    have hne101 : v ≠ 0x00000101 := fun hv101 => hlfsr ⟨hn, hv101⟩
    exact execute_sameConfiguration (by bv_omega) (by bv_omega) hcmd
  · simp [State.SameConfiguration]

/-- Settles O38: of the accesses, only a command word can write a latch, and of the commands only the
two CONSTRUCTs do, each of which has one word. -/
theorem configurationIsImmutable : Obligations.ConfigurationIsImmutable := by
  intro s t rest e hs hreset hlcg hlfsr h
  rw [step_cons hs] at h
  cases e with
  | reset => exact absurd rfl hreset
  | rd n =>
    obtain ⟨r, -, rfl⟩ := hostRead_next h
    simp [State.SameConfiguration]
  | wr n v =>
    exact hostWrite_sameConfiguration (s := { s with host := rest })
      (fun ⟨hn, hv⟩ => hlcg (by rw [hn, hv])) (fun ⟨hn, hv⟩ => hlfsr (by rw [hn, hv])) h

/-! ### The range checks of `CONSTRUCT.LFSR` -/

/-- With a legal length, `CONSTRUCT.LFSR` reports taps that need more bits, then a seed that does, then
success (41_lfsr_engine.md R147). -/
theorem exec_constructLfsr_report {s t : State} (hpos : 1 ≤ s.opLen.toNat)
    (hle : s.opLen.toNat ≤ s.cfg.W) (h : exec .constructLfsr s = .next t) :
    (2 ^ s.opLen.toNat ≤ s.opTaps ∧ t.errKind = 1#2 ∧ t.errCause = 5#4) ∨
    (s.opTaps < 2 ^ s.opLen.toNat ∧ 2 ^ s.opLen.toNat ≤ s.opSeed ∧
      t.errKind = 1#2 ∧ t.errCause = 6#4) ∨
    (s.opTaps < 2 ^ s.opLen.toNat ∧ s.opSeed < 2 ^ s.opLen.toNat ∧
      t.errKind = 0#2 ∧ t.errCause = 0#4) := by
  obtain ⟨e, he, rfl⟩ | ⟨he, rfl⟩ := exec_constructLfsr_next h <;>
    rw [lfsrError_of_length_legal hpos hle] at he <;>
    split_ifs at he with htaps hseed <;> cases he
  · exact .inl ⟨htaps, rfl, rfl⟩
  · exact .inr (.inl ⟨Nat.not_le.1 htaps, hseed, rfl, rfl⟩)
  · exact .inr (.inr ⟨Nat.not_le.1 htaps, Nat.not_le.1 hseed, rfl, rfl⟩)

/-- Settles O21: some index from `OP_LEN` up is tapped iff the taps are at least `2^OP_LEN`, and for a
legal length only the taps and the seed are checked against that bound. -/
theorem lfsrRangeChecksAreByIndex : Obligations.LfsrRangeChecksAreByIndex := by
  intro s t hpos hle h
  have hbelow : (∀ j, s.opTaps.testBit j = true → j < s.opLen.toNat) →
      s.opTaps < 2 ^ s.opLen.toNat := fun hall => by
    by_contra hge
    obtain ⟨j, hj, hbit⟩ := (two_pow_le_iff_exists_testBit _ _).1 (Nat.not_lt.1 hge)
    exact absurd (hall j hbit) (Nat.not_lt.2 hj)
  have hfull : s.opLen.toNat = s.cfg.W → s.RegistersFit →
      s.opTaps < 2 ^ s.opLen.toNat ∧ s.opSeed < 2 ^ s.opLen.toNat := by
    rintro hlen ⟨-, -, htaps, hseed, -⟩
    exact hlen ▸ ⟨htaps, hseed⟩
  rw [← two_pow_le_iff_exists_testBit]
  obtain ⟨htaps, hk, hc⟩ | ⟨htaps, hseed, hk, hc⟩ | ⟨htaps, hseed, hk, hc⟩ :=
    exec_constructLfsr_report hpos hle h
  · refine ⟨by simp [hk, hc, htaps], fun hall => ?_, fun hlen hfit => ?_⟩
    · exact absurd (hbelow hall) (Nat.not_lt.2 htaps)
    · exact absurd (hfull hlen hfit).1 (Nat.not_lt.2 htaps)
  · refine ⟨by simp [hk, hc, htaps], fun _ => by simp [hk, hc, hseed], fun hlen hfit => ?_⟩
    exact absurd (hfull hlen hfit).2 (Nat.not_lt.2 hseed)
  · exact ⟨by simp [hk, htaps], fun _ => by simp [hk, hseed], fun _ _ => hk⟩

/-! ### `STATUS` -/

/-- A one-bit field has its bit at its place and 0 elsewhere. -/
theorem flagAt_getLsbD (k : Nat) (b : Bool) {j : Nat} (hj : j < 32) :
    (flagAt k b).getLsbD j = (b && decide (j = k)) := by
  cases b with
  | false => simp [flagAt]
  | true =>
    simp only [flagAt, if_true, BitVec.getLsbD_shiftLeft, BitVec.getLsbD_one, Bool.true_and]
    grind

/-- `STATUS` bit by bit (10_state.md R35, 43_host_access.md R191). -/
theorem statusWord_getLsbD (s : State) {j : Nat} (hj : j < 32) :
    s.statusWord.getLsbD j =
      ((s.gValid && decide (j = 0)) || (s.gKindRead && decide (j = 1)) ||
        (s.rValid && decide (j = 2)) || (decide (8 ≤ j) && s.errKind.getLsbD (j - 8)) ||
        (decide (12 ≤ j) && s.errCause.getLsbD (j - 12))) := by
  simp only [State.statusWord, BitVec.getLsbD_or, flagAt_getLsbD _ _ hj, BitVec.getLsbD_shiftLeft,
    BitVec.getLsbD_setWidth, hj]
  grind

/-- `GKIND` reads 1 iff an LFSR exists (10_state.md R35). -/
theorem gKindRead_eq (s : State) : s.gKindRead = (s.gValid && decide (s.gKind = .lfsr)) := by
  unfold State.gKindRead
  cases s.gKind <;> rfl

/-- Settles O44: each field is what `statusWord_getLsbD` says of its bits, and at a reserved bit every
term of it is 0. -/
theorem statusFieldsAndReservedBits : Obligations.StatusFieldsAndReservedBits := by
  intro s
  refine ⟨?_, ?_, ?_, ?_, ?_, fun k hk => ?_⟩
  · rw [statusWord_getLsbD s (by decide)]
    simp
  · rw [statusWord_getLsbD s (by decide), gKindRead_eq]
    simp
  · rw [statusWord_getLsbD s (by decide)]
    simp
  · refine BitVec.eq_of_getLsbD_eq fun i hi => ?_
    have hflags : 8 + i ≠ 1 ∧ 8 + i ≠ 2 := by omega
    have hcause : ¬ 12 ≤ 8 + i := by omega
    rw [BitVec.getLsbD_extractLsb', statusWord_getLsbD s (by omega)]
    simp [hi, hflags, hcause]
  · refine BitVec.eq_of_getLsbD_eq fun i hi => ?_
    have hflags : 12 + i ≠ 1 ∧ 12 + i ≠ 2 := by omega
    have hkind : s.errKind.getLsbD (12 + i - 8) = false := BitVec.getLsbD_of_ge _ _ (by omega)
    rw [BitVec.getLsbD_extractLsb', statusWord_getLsbD s (by omega)]
    simp [hi, hflags, hkind]
  · by_cases hlt : k < 32
    · have hflags : k ≠ 0 ∧ k ≠ 1 ∧ k ≠ 2 := by omega
      have hkind : 8 ≤ k → s.errKind.getLsbD (k - 8) = false := fun _ =>
        BitVec.getLsbD_of_ge _ _ (by omega)
      have hcause : 12 ≤ k → s.errCause.getLsbD (k - 12) = false := fun _ =>
        BitVec.getLsbD_of_ge _ _ (by omega)
      simpa [statusWord_getLsbD s hlt, hflags] using ⟨hkind, hcause⟩
    · exact BitVec.getLsbD_of_ge _ _ (Nat.not_lt.1 hlt)

/-! ### The reset event -/

/-- Without a generator, a result and an error `STATUS` reads 0 (10_state.md R41). -/
theorem statusWord_eq_zero {s : State} (hg : s.gValid = false) (hr : s.rValid = false)
    (hk : s.errKind = 0#2) (hc : s.errCause = 0#4) : s.statusWord = 0#32 := by
  have hkind : s.gKindRead = false := by rw [gKindRead_eq, hg, Bool.false_and]
  simp only [State.statusWord, hg, hr, hk, hc, hkind]
  decide

/-- Settles O46: the reset event clears the flags and the report, and a run always starts with an
empty visited set. -/
theorem resetEventClearsFlagsAndReport : Obligations.ResetEventClearsFlagsAndReport := fun _ _ hs =>
  ⟨_, step_cons hs, rfl, rfl, rfl, rfl, statusWord_eq_zero rfl rfl rfl rfl, rfl, fun _ => rfl, rfl,
    rfl, rfl⟩

end Sys2Proof.Machine
end

section
/-! PROOFS. The two memories: the visited set of a run, and reads of the host (20_memory.md). -/

namespace Sys2Proof.Machine

/-! ### The visited set of a run -/

/-- Each raw value is the engine's step from the one before (42_sequence_runner.md R168). -/
@[simp] theorem State.rawValue_succ (s : State) (x0 k : Nat) :
    s.rawValue x0 (k + 1) = s.engineStep (s.rawValue x0 k) := rfl

@[simp] theorem State.runStart_len (s : State) (reseed : Bool) : (s.runStart reseed).len = 0 := rfl

/-- Induction over the rounds of a run that starts from `x0`: the round that begins with `len`
values emitted tests the raw value `e[len]`. It ends a run with `stop = 1` if that value was
visited, and emits it otherwise (42_sequence_runner.md R165 to R168). -/
theorem runLoop_induct_rawValue {stop : Bool} {q : Option Nat} {s : State} {x0 : Nat}
    (P : RunVars → Prop)
    (hstop : ∀ v, P v → stop = true → s.rawValue x0 v.len ∈ v.visited →
      P (v.detect (s.rawValue x0 v.len)))
    (hgo : ∀ v, P v → (stop = false ∨ s.rawValue x0 v.len ∉ v.visited) →
      P ((v.detect (s.rawValue x0 v.len)).emit q (s.rawValue x0 v.len)))
    (n : Nat) (v : RunVars) (hx : s.engineStep v.x = s.rawValue x0 v.len) (h : P v) :
    P (s.runLoop stop q n v) := by
  induction n generalizing v with
  | zero => exact h
  | succ n ih =>
    by_cases hs : stop = false ∨ s.engineStep v.x ∉ v.visited
    · rw [runLoop_go hs, hx]
      exact ih _ (by simp) (hgo v h (hx ▸ hs))
    · obtain ⟨rfl, hseen⟩ : stop = true ∧ s.engineStep v.x ∈ v.visited := by simpa using hs
      rw [runLoop_stop hseen, hx]
      exact hstop v h rfl (hx ▸ hseen)

/-- The visited set holds exactly the raw values emitted so far, without repeats and no more of them
than values were emitted (20_memory.md R61 to R63). -/
structure RunVars.VisitedExact (s : State) (x0 : Nat) (v : RunVars) : Prop where
  nodup : v.visited.Nodup
  length_le : v.visited.length ≤ v.len
  indexIsLen : v.i = v.len
  mem_iff : ∀ w, w ∈ v.visited ↔ ∃ k, k < v.len ∧ s.rawValue x0 k = w

/-- Nothing is visited and nothing emitted at the start of a run (42_sequence_runner.md R164). -/
theorem runStart_visitedExact (s : State) (x0 : Nat) (reseed : Bool) :
    (s.runStart reseed).VisitedExact s x0 where
  nodup := List.nodup_nil
  length_le := le_rfl
  indexIsLen := rfl
  mem_iff := by simp [State.runStart]

/-- The engine step and the recording of a first repeat neither visit nor emit. -/
theorem RunVars.VisitedExact.detect {s : State} {x0 : Nat} {v : RunVars} (h : v.VisitedExact s x0)
    (raw : Nat) : (v.detect raw).VisitedExact s x0 where
  nodup := by simpa using h.nodup
  length_le := by simpa using h.length_le
  indexIsLen := by simpa using h.indexIsLen
  mem_iff := by simpa using h.mem_iff

/-- Inserting and emitting `e[len]` adds it to both sides, whether or not it was visited before. -/
theorem RunVars.VisitedExact.emit {s : State} {x0 : Nat} {v : RunVars} (h : v.VisitedExact s x0)
    (q : Option Nat) : (v.emit q (s.rawValue x0 v.len)).VisitedExact s x0 where
  nodup := histInsert_nodup _ h.nodup
  length_le := (histInsert_length_le _ _).trans (Nat.succ_le_succ h.length_le)
  indexIsLen := congrArg (· + 1) h.indexIsLen
  mem_iff := fun w => by
    rw [RunVars.emit_visited, RunVars.emit_len, mem_histInsert, h.mem_iff, Nat.exists_lt_succ_right,
      or_comm, eq_comm]

/-- After any number of rounds the visited set is exact. -/
theorem runLoop_visitedExact (s : State) (stop reseed : Bool) (q : Option Nat) (n : Nat) :
    (s.runLoop stop q n (s.runStart reseed)).VisitedExact s (s.startOf reseed) :=
  runLoop_induct_rawValue (x0 := s.startOf reseed) _ (fun _ hv _ _ => hv.detect _)
    (fun v hv _ => by simpa using (hv.detect (s.rawValue (s.startOf reseed) v.len)).emit q)
    n _ rfl (runStart_visitedExact s _ reseed)

/-- A run emits at most one value a round, from none at its start. -/
theorem runLoop_runStart_len_le (s : State) (stop reseed : Bool) (q : Option Nat) (n : Nat) :
    (s.runLoop stop q n (s.runStart reseed)).len ≤ n := by
  simpa using runLoop_len_le stop q s n (s.runStart reseed)

/-- Settles O30: the visited set is exact after any number of rounds, of which each emits at most
one value, and a run whose entry checks pass has at most `HIST_DEPTH` rounds. -/
theorem visitedSetIsExactAndFits : Obligations.VisitedSetIsExactAndFits := by
  refine ⟨fun s stop reseed q n => ?_, fun s t stop moden reseed h hvalid => ?_⟩
  · have hexact := runLoop_visitedExact s stop reseed q n
    have hlen := runLoop_runStart_len_le s stop reseed q n
    refine ⟨hexact.nodup, hexact.length_le, hlen, hexact.indexIsLen, hexact.mem_iff,
      fun moden hready hn => ?_⟩
    obtain ⟨-, -, hcap, -⟩ := hready
    have hfits := hlen.trans (hn.trans hcap)
    exact ⟨hexact.length_le.trans hfits, hfits⟩
  · obtain ⟨e, -, rfl⟩ | ⟨⟨-, -, hcap, -⟩, rfl⟩ := exec_run_next h
    · simp at hvalid
    · exact (runLoop_runStart_len_le s stop reseed _ _).trans hcap

/-! ### Reads of the host -/

/-- A step that reads a register logs what it holds and changes nothing of the block (20_memory.md
R69). -/
theorem step_rd_next {s t : State} {n : Nat} {rest : List HostEvent} (hs : s.host = .rd n :: rest)
    (h : step s = .next t) : ∃ r, Reg.ofNumber n = some r ∧
      t = { s with host := rest, readLog := s.readReg r :: s.readLog } := by
  rw [step_cons hs] at h
  obtain ⟨r, hr, rfl⟩ := hostRead_next h
  have hvalue : ({ s with host := rest } : State).readReg r = s.readReg r :=
    State.readReg_congr (s.block_host rest) r
  exact ⟨r, hr, by rw [State.logRead, hvalue]⟩

/-- Settles O45: the first read leaves the block as it was, and what a register reads depends on the
block alone. -/
theorem readsAreIdempotent : Obligations.ReadsAreIdempotent := by
  intro s t u rest n hs hfirst hsecond
  obtain ⟨r, hr, ht⟩ := step_rd_next hs hfirst
  have hhost : t.host = .rd n :: rest := by rw [ht]
  obtain ⟨r', hr', hu⟩ := step_rd_next hhost hsecond
  obtain rfl : r = r' := Option.some.inj (hr.symm.trans hr')
  have hagain : t.readReg r = s.readReg r := State.readReg_congr (by rw [ht]; rfl) r
  exact ⟨s.readReg r, by rw [hu, hagain, ht]⟩

end Sys2Proof.Machine
end

section
/-! PROOFS. Command words: decoding and encoding, illegal words, what each command reads, and the
operands of the pseudo-operations (30_encoding.md). -/

namespace Sys2Proof.Machine

/-! ### Decoding and encoding -/

/-- Every command's word decodes to it (30_encoding.md R90, R99). -/
theorem decode_encode (i : Instr) : decode (encode i) = .instr i :=
  match i with
  | .constructLcg => Laws.RoundTrip.constructLcg
  | .constructLfsr => Laws.RoundTrip.constructLfsr
  | .run stop moden reseed => Laws.RoundTrip.run stop moden reseed

/-- A word decodes to a command iff it is the command's word (30_encoding.md R94, R99). -/
theorem decode_eq_instr_iff {c : CmdWord} {i : Instr} : decode c = .instr i ↔ c = encode i :=
  ⟨eq_encode_of_decode, fun h => h ▸ decode_encode i⟩

/-- Settles O3: every command's word decodes to it, and no other word does. -/
theorem decodeIsInverseOfEncode : Obligations.DecodeIsInverseOfEncode :=
  fun _ _ _ => decode_eq_instr_iff

/-- The mask of `RUN` leaves out `STOP`, `MODEN` and `RESEED` only (30_encoding.md R94). -/
theorem runMask_flags :
    ∀ k < 32, (0xFFFFF8FF#32).getLsbD k = false → k = 8 ∨ k = 9 ∨ k = 10 := by decide

/-- The mask of `RUN` keeps the whole opcode field (30_encoding.md R94). -/
theorem opc_and_runMask (c : CmdWord) : opc (c &&& 0xFFFFF8FF#32) = opc c := by
  rw [opc, BitVec.extractLsb'_and]
  exact BitVec.and_allOnes

/-- The word of a `RUN` under the row's mask is the row's match (30_encoding.md R94). -/
theorem encode_run_and_mask : ∀ stop moden reseed : Bool,
    encode (.run stop moden reseed) &&& 0xFFFFF8FF#32 = 0x00000002#32 := by decide

/-- A word is that of a `RUN` iff it matches under the row's mask and has the flags at bits 8, 9 and
10 (30_encoding.md R94). -/
theorem eq_encode_run_iff {c : CmdWord} {stop moden reseed : Bool} :
    c = encode (.run stop moden reseed) ↔ c &&& 0xFFFFF8FF#32 = 0x00000002#32 ∧
      c.getLsbD 8 = stop ∧ c.getLsbD 9 = moden ∧ c.getLsbD 10 = reseed := by
  have hword := encode_run_and_mask stop moden reseed
  obtain ⟨-, -, h8, h9, h10⟩ := encode_run_fields stop moden reseed
  constructor
  · rintro rfl
    exact ⟨hword, h8, h9, h10⟩
  · rintro ⟨hmatch, hc8, hc9, hc10⟩
    have hmask := hmatch.trans hword.symm
    have hopc : opc c = opc (encode (.run stop moden reseed)) := by
      rw [← opc_and_runMask c, hmask, opc_and_runMask]
    refine cmdWord_eq_of_fields _ hopc hmask fun k hk _ hm => ?_
    obtain rfl | rfl | rfl := runMask_flags k hk hm
    exacts [hc8.trans h8.symm, hc9.trans h9.symm, hc10.trans h10.symm]

/-- Settles O2: a word decodes to a command iff it is the command's word; the masks of the
CONSTRUCTs leave out no bit, and that of `RUN` its flags only. -/
theorem decodeFollowsMatchAndMask : Obligations.DecodeFollowsMatchAndMask := by
  intro c
  have hall : c &&& 0xFFFFFFFF#32 = c := BitVec.and_allOnes
  refine ⟨?_, ?_, fun stop moden reseed => decode_eq_instr_iff.trans eq_encode_run_iff⟩
  · rw [hall]
    exact decode_eq_instr_iff
  · rw [hall]
    exact decode_eq_instr_iff

/-! ### Illegal words -/

/-- A word with neither opcode is illegal by its opcode (30_encoding.md R95). -/
theorem decode_eq_illegal_opcode {c : CmdWord} (h1 : opc c ≠ 0x1#4) (h2 : opc c ≠ 0x2#4) :
    decode c = .illegal .opcode := by
  rw [decode, if_neg h1, if_neg h2]

/-- A bit that a mask selects is set in the word, so the masked word is not 0. -/
theorem and_ne_zero_of_getLsbD {c mask : CmdWord} {k : Nat} (hc : c.getLsbD k = true)
    (hm : mask.getLsbD k = true) : c &&& mask ≠ 0#32 := fun h => by
  simpa [hc, hm] using congrArg (BitVec.getLsbD · k) h

/-- The bits that format `C` reserves, by number (30_encoding.md R90). -/
theorem reservedC_getLsbD :
    ∀ k < 32, (4 ≤ k ∧ k ≤ 7) ∨ (9 ≤ k ∧ k ≤ 31) → reservedC.getLsbD k = true := by decide

/-- The bits that format `N` reserves, by number (30_encoding.md R90). -/
theorem reservedN_getLsbD :
    ∀ k < 32, (4 ≤ k ∧ k ≤ 7) ∨ (11 ≤ k ∧ k ≤ 31) → reservedN.getLsbD k = true := by decide

/-- A word of format `C` with a reserved bit set is illegal by it (30_encoding.md R95). -/
theorem decode_eq_illegal_reserved_of_formatC {c : CmdWord} {k : Nat} (ho : opc c = 0x1#4)
    (hk : (4 ≤ k ∧ k ≤ 7) ∨ (9 ≤ k ∧ k ≤ 31)) (hc : c.getLsbD k = true) :
    decode c = .illegal .reserved := by
  have hres := and_ne_zero_of_getLsbD hc (reservedC_getLsbD k (by omega) hk)
  rw [decode, if_pos ho, if_pos hres]

/-- A word of format `N` with a reserved bit set is illegal by it (30_encoding.md R95). -/
theorem decode_eq_illegal_reserved_of_formatN {c : CmdWord} {k : Nat} (ho : opc c = 0x2#4)
    (hk : (4 ≤ k ∧ k ≤ 7) ∨ (11 ≤ k ∧ k ≤ 31)) (hc : c.getLsbD k = true) :
    decode c = .illegal .reserved := by
  have hne : opc c ≠ 0x1#4 := by rw [ho]; decide
  have hres := and_ne_zero_of_getLsbD hc (reservedN_getLsbD k (by omega) hk)
  rw [decode, if_neg hne, if_pos ho, if_pos hres]

/-- A step whose next access writes a word to `CMD` executes the word (43_host_access.md R190). -/
theorem step_cmd {s : State} {c : CmdWord} {rest : List HostEvent}
    (hs : s.host = .wr 0 c.toNat :: rest) : step s = execute c { s with host := rest } :=
  (step_cons hs).trans (hostWrite_cmd c _)

/-- A step that writes an illegal word to `CMD` records its cause and nothing else (30_encoding.md
R95). -/
theorem step_illegal {s : State} {c : CmdWord} {rest : List HostEvent} {why : IllegalWord}
    (hs : s.host = .wr 0 c.toNat :: rest) (h : decode c = .illegal why) :
    step s = .next (({ s with host := rest } : State).raise (illegalCause why)) :=
  (step_cmd hs).trans (execute_illegal _ h)

/-- A `RUN` without a generator is refused and clears `RVALID` (42_sequence_runner.md R162). -/
theorem exec_run_of_no_generator {s : State} (h : s.gValid = false) (stop moden reseed : Bool) :
    exec (.run stop moden reseed) s = .next (s.dropResult.raise .icNoGen) := by
  have herr : s.runError moden = some .icNoGen := if_pos h
  rw [exec_run_eq, herr]

/-- Settles O4: an illegal word decodes to its cause, which the step records; a legal `RUN` word is
executed and fails the first of its entry checks. -/
theorem illegalWordsChangeOnlyTheReport : Obligations.IllegalWordsChangeOnlyTheReport := by
  intro s c rest hs
  refine ⟨fun h1 h2 => ?_, ?_, ?_, ?_⟩
  · exact step_illegal hs (decode_eq_illegal_opcode h1 h2)
  · rintro ho ⟨k, hk, hc⟩
    exact step_illegal hs (decode_eq_illegal_reserved_of_formatC ho hk hc)
  · rintro ho ⟨k, hk, hc⟩
    exact step_illegal hs (decode_eq_illegal_reserved_of_formatN ho hk hc)
  · rintro ⟨stop, moden, reseed, hd⟩ hg
    rw [step_cmd hs, execute_instr _ hd]
    exact exec_run_of_no_generator (s := { s with host := rest }) hg stop moden reseed

/-- Settles O1: the legal words are the encodings of their commands, and the illegal ones have
neither opcode, or bit 9 or bit 11 set where their format reserves it. -/
theorem decodeOfWordsWrittenOut : Obligations.DecodeOfWordsWrittenOut :=
  ⟨decode_encode .constructLcg, decode_encode .constructLfsr,
    decode_encode (.run false false false), decode_encode (.run true true false),
    decode_encode (.run false false true),
    decode_eq_illegal_opcode (by decide) (by decide),
    decode_eq_illegal_opcode (by decide) (by decide),
    decode_eq_illegal_reserved_of_formatC (k := 9) (by decide) (by decide) (by decide),
    decode_eq_illegal_reserved_of_formatN (k := 11) (by decide) (by decide) (by decide)⟩

/-! ### What each command reads -/

/-- `CONSTRUCT.LCG` reads none of `OP_LEN`, `OP_TAPS`, `OP_N` and `OP_MODULUS` (30_encoding.md
R93). -/
theorem exec_constructLcg_other_operands {s t : State} (h : exec .constructLcg s = .next t)
    (l : Size) (taps n q : Nat) :
    exec .constructLcg { s with opLen := l, opTaps := taps, opN := n, opModulus := q } =
      .next { t with opLen := l, opTaps := taps, opN := n, opModulus := q } := by
  have hchecks : ({ s with opLen := l, opTaps := taps, opN := n, opModulus := q } : State).lcgError
      = s.lcgError := rfl
  rw [exec_constructLcg_eq, hchecks]
  obtain ⟨e, he, rfl⟩ | ⟨he, rfl⟩ := exec_constructLcg_next h <;> rw [he] <;> rfl

/-- `CONSTRUCT.LFSR` reads none of `OP_A`, `OP_B`, `OP_M`, `OP_N` and `OP_MODULUS` (30_encoding.md
R93). -/
theorem exec_constructLfsr_other_operands {s t : State} (h : exec .constructLfsr s = .next t)
    (a b : Nat) (m : Size) (n q : Nat) :
    exec .constructLfsr { s with opA := a, opB := b, opM := m, opN := n, opModulus := q } =
      .next { t with opA := a, opB := b, opM := m, opN := n, opModulus := q } := by
  have hchecks : ({ s with opA := a, opB := b, opM := m, opN := n, opModulus := q } : State).lfsrError
      = s.lfsrError := rfl
  rw [exec_constructLfsr_eq, hchecks]
  obtain ⟨e, he, rfl⟩ | ⟨he, rfl⟩ := exec_constructLfsr_next h <;> rw [he] <;> rfl

/-- The state with other values in the operand registers of the CONSTRUCTs and in `OP_MODULUS`: all
that a `RUN` with `MODEN = 0` does not read (30_encoding.md R93). -/
def State.withUnreadByRun (a b : Nat) (m l : Size) (taps seed q : Nat) (s : State) : State :=
  { s with
    opA := a, opB := b, opM := m, opLen := l, opTaps := taps, opSeed := seed, opModulus := q }

/-- The entry checks of a `RUN` read `OP_MODULUS` with `MODEN = 1` only, and no operand of a
CONSTRUCT (30_encoding.md R92, R93). -/
theorem runError_withUnreadByRun {s : State} {moden : Bool} {q : Nat}
    (hq : moden = true → q = s.opModulus) (a b : Nat) (m l : Size) (taps seed : Nat) :
    (s.withUnreadByRun a b m l taps seed q).runError moden = s.runError moden := by
  cases moden with
  | true => rw [hq rfl]; rfl
  | false => simp only [State.runError, Bool.false_eq_true, false_and]; rfl

/-- A run projects with `OP_MODULUS` with `MODEN = 1` only (30_encoding.md R92). -/
theorem modulusOf_withUnreadByRun {s : State} {moden : Bool} {q : Nat}
    (hq : moden = true → q = s.opModulus) (a b : Nat) (m l : Size) (taps seed : Nat) :
    (s.withUnreadByRun a b m l taps seed q).modulusOf moden = s.modulusOf moden := by
  cases moden with
  | true => exact congrArg some (hq rfl)
  | false => rfl

/-- A `RUN` reads no operand of a CONSTRUCT, and `OP_MODULUS` with `MODEN = 1` only: its engine runs
from the latches (30_encoding.md R92, R93). -/
theorem exec_run_withUnreadByRun {s t : State} {stop moden reseed : Bool} {q : Nat}
    (hq : moden = true → q = s.opModulus) (h : exec (.run stop moden reseed) s = .next t)
    (a b : Nat) (m l : Size) (taps seed : Nat) :
    exec (.run stop moden reseed) (s.withUnreadByRun a b m l taps seed q) =
      .next (t.withUnreadByRun a b m l taps seed q) := by
  have hengine : (s.withUnreadByRun a b m l taps seed q).engineStep = s.engineStep := rfl
  rw [exec_run_eq] at h ⊢
  rw [runError_withUnreadByRun hq, modulusOf_withUnreadByRun hq, runLoop_congr hengine]
  cases he : s.runError moden <;> rw [he] at h <;> cases h <;> rfl

/-- A `RUN` keeps `OP_MODULUS` (10_state.md R22). -/
theorem exec_run_opModulus {s t : State} {stop moden reseed : Bool}
    (h : exec (.run stop moden reseed) s = .next t) : t.opModulus = s.opModulus := by
  obtain ⟨e, -, rfl⟩ | ⟨-, rfl⟩ := exec_run_next h <;> rfl

/-- Settles O39: the checks of each command, what it latches and the engine of a run read the
command's own operands only; with `MODEN = 1` the modulus of the run is the one that stays. -/
theorem commandsReadOnlyTheirOperands : Obligations.CommandsReadOnlyTheirOperands := by
  intro s t a b m l taps seed q n
  refine ⟨fun h => exec_constructLcg_other_operands h l taps n q,
    fun h => exec_constructLfsr_other_operands h a b m n q,
    fun stop reseed h => exec_run_withUnreadByRun (moden := false) nofun h a b m l taps seed,
    fun stop reseed h => ?_⟩
  have hkeep : t.withUnreadByRun a b m l taps seed s.opModulus = { t with
      opA := a, opB := b, opM := m, opLen := l, opTaps := taps, opSeed := seed } := by
    rw [State.withUnreadByRun, exec_run_opModulus h]
  exact (exec_run_withUnreadByRun (fun _ => rfl) h a b m l taps seed).trans (congrArg _ hkeep)

/-! ### The operands of the pseudo-operations -/

/-- Bit `j` of the tap mask is set iff `j` is tapped (30_encoding.md R98, 10_state.md R25). -/
theorem testBit_tapMask (taps : List Nat) (j : Nat) :
    (tapMask taps).testBit j = true ↔ j ∈ taps := by
  induction taps with
  | nil => simp [tapMask]
  | cons i rest ih =>
    rw [tapMask, Nat.testBit_or, Bool.or_eq_true, ih, Nat.testBit_two_pow, decide_eq_true_iff,
      List.mem_cons, eq_comm]

/-- The value of a sequence of bits fits the sequence's length (10_state.md R26). -/
theorem seedOfBits_lt (bits : List Bool) : seedOfBits bits < 2 ^ bits.length := by
  induction bits with
  | nil => exact Nat.one_pos
  | cons b rest ih =>
    have hb : b.toNat * 2 ^ rest.length ≤ 2 ^ rest.length :=
      mul_le_of_le_one_left' b.toNat_le
    rw [seedOfBits, List.length_cons, pow_succ]
    omega

/-- The element of index 0 is the bit above those of the rest (00_scope.md R8). -/
theorem testBit_seedOfBits_cons (b : Bool) (rest : List Bool) (k : Nat) :
    (seedOfBits (b :: rest)).testBit k =
      if k < rest.length then (seedOfBits rest).testBit k
      else b.toNat.testBit (k - rest.length) := by
  rw [seedOfBits, Nat.mul_comm, Nat.testBit_two_pow_mul_add _ (seedOfBits_lt rest)]

/-- The register written as a sequence of bits holds element `j` at sequence index `j`
(30_encoding.md R98, 00_scope.md R8). -/
theorem seqBit_seedOfBits (bits : List Bool) (j : Nat) (h : j < bits.length) :
    seqBit bits.length (seedOfBits bits) j = bits[j] := by
  induction bits generalizing j with
  | nil => exact absurd h (Nat.not_lt_zero j)
  | cons b rest ih =>
    rw [seqBit, testBit_seedOfBits_cons]
    cases j with
    | zero => cases b <;> simp
    | succ j =>
      have hj : j < rest.length := Nat.lt_of_succ_lt_succ h
      have hindex : (b :: rest).length - 1 - (j + 1) = rest.length - 1 - j := by
        rw [List.length_cons]; omega
      rw [hindex, if_pos (by omega), List.getElem_cons_succ]
      exact ih j hj

/-- Settles O48: the mask by induction on the list of taps, the register by induction on the
sequence of its bits, of which the first is the most significant. -/
theorem pseudoOperationOperands : Obligations.PseudoOperationOperands :=
  ⟨testBit_tapMask, fun bits j h => ⟨seqBit_seedOfBits bits j h, seedOfBits_lt bits⟩⟩

end Sys2Proof.Machine
end

section
/-! PROOFS. The LCG engine, `CONSTRUCT.LCG`, and the frame of the two CONSTRUCTs
(40_lcg_engine.md). -/

namespace Sys2Proof.Machine

/-! ### The step -/

/-- With an LCG latched, the dispatched step is `LCG.STEP` on the latches (42_sequence_runner.md
R160). -/
theorem engineStep_of_lcg {s : State} (h : s.gKind = .lcg) (x : Nat) :
    s.engineStep x = lcgNext s.gA s.gB s.gM.toNat x := by
  simp only [State.engineStep, h]

/-- Settles O11: the dispatched step is `LCG.STEP`, which is a remainder by `2^G_M`. -/
theorem lcgStepIsTheRecurrence : Obligations.LcgStepIsTheRecurrence := fun _ x h =>
  ⟨engineStep_of_lcg h x, engineStep_of_lcg h x ▸ lcgNext_lt _ _ _ x⟩

/-- `m` low bits of a sum and product are those of the sum and product wrapped to `W ≥ m` bits
(40_lcg_engine.md R123). -/
theorem lcgNext_eq_wrapped {W m : Nat} (h : m ≤ W) (a b x : Nat) :
    lcgNext a b m x = ((a * x) % 2 ^ W + b) % 2 ^ W % 2 ^ m := by
  rw [Nat.mod_add_mod, Nat.mod_mod_of_dvd _ (Nat.pow_dvd_pow 2 h), lcgNext]

/-- The step depends on `a` and `b` modulo `2^m` only (40_lcg_engine.md R123). -/
theorem lcgNext_mod_operands (a b m x : Nat) :
    lcgNext (a % 2 ^ m) (b % 2 ^ m) m x = lcgNext a b m x :=
  ((Nat.mod_modEq a (2 ^ m)).mul_right x).add (Nat.mod_modEq b (2 ^ m))

/-- Settles O12: `2^m` divides `2^W`, so wrapping to `W` bits on the way loses nothing of the
remainder by `2^m`. -/
theorem lcgWrappingDataPathAgrees : Obligations.LcgWrappingDataPathAgrees := fun _ m a b x h =>
  ⟨lcgNext_eq_wrapped h a b x, lcgNext_mod_operands a b m x⟩

/-- With a single bit of state, the product is a conjunction and the sum an exclusive-or
(40_lcg_engine.md R125). -/
theorem lcgNext_one_bit (a b x : Nat) :
    lcgNext a b 1 x = ((a.testBit 0 && x.testBit 0).xor (b.testBit 0)).toNat := by
  have hbit : ∀ n : Nat, n.testBit 0 = n.bodd := fun n => (Nat.bodd_eq_one_and_ne_zero n).symm
  rw [hbit, hbit, hbit, ← Nat.bodd_mul, ← Nat.bodd_add, lcgNext, pow_one, Nat.mod_two_of_bodd]

/-- Settles O13: the operands at 0 and 1 make the sum `b`, `x` and 0, and one bit is
`lcgNext_one_bit`. -/
theorem lcgCornerCases : Obligations.LcgCornerCases := by
  intro a b x m
  refine ⟨?_, fun hx => ?_, ?_, lcgNext_one_bit a b x⟩
  · rw [lcgNext, Nat.zero_mul, Nat.zero_add]
  · rw [lcgNext, Nat.one_mul, Nat.add_zero, Nat.mod_eq_of_lt hx]
  · rw [lcgNext, Nat.mul_zero, Nat.add_zero, Nat.zero_mod]

/-! ### `CONSTRUCT.LCG` -/

/-- `CONSTRUCT.LCG` whose checks raise an error records it and drops the generator
(40_lcg_engine.md R124). -/
theorem exec_constructLcg_of_error {s : State} {e : ErrorCause} (h : s.lcgError = some e) :
    exec .constructLcg s = .next (s.dropGenerator.raise e) := by
  rw [exec_constructLcg_eq, h]

/-- `CONSTRUCT.LCG` whose checks pass clears the report and latches its operands (40_lcg_engine.md
R124). -/
theorem exec_constructLcg_of_checksPass {s : State} (h : s.ChecksPass .constructLcg) :
    exec .constructLcg s = .next s.clearError.latchLcg := by
  rw [exec_constructLcg_eq, (lcgError_eq_none_iff s).2 h]

/-- Settles O14: the word is the command's encoding, and in each case the first check that applies
is the one named. -/
theorem constructLcgMeaning : Obligations.ConstructLcgMeaning := by
  refine ⟨decode_encode .constructLcg, fun s => ⟨fun hm hw hseed => ?_, fun hm => ?_,
    fun hm hw => ?_, fun hm hw hseed => ?_⟩⟩
  · have hpos : 1 ≤ s.opM.toNat := by bv_omega
    exact exec_constructLcg_of_checksPass ⟨hpos, hw, hseed⟩
  · have herr : s.lcgError = some .ceMZero := if_pos hm
    exact exec_constructLcg_of_error herr
  · have herr : s.lcgError = some .ceMWide := by rw [State.lcgError, if_neg hm, if_pos hw]
    exact exec_constructLcg_of_error herr
  · have herr : s.lcgError = some .ceSeedRange := by
      rw [State.lcgError, if_neg hm, if_neg (Nat.not_lt.2 hw), if_pos hseed]
    exact exec_constructLcg_of_error herr

/-! ### The frame of the CONSTRUCTs -/

/-- A CONSTRUCT of either kind dropped the generator and raised an error, or latched the generator
of its kind (40_lcg_engine.md R124, 41_lfsr_engine.md R147). -/
theorem exec_construct_next {i : Instr} {s t : State} (hi : i = .constructLcg ∨ i = .constructLfsr)
    (h : exec i s = .next t) :
    (∃ e, t = s.dropGenerator.raise e) ∨ (i = .constructLcg ∧ t = s.clearError.latchLcg) ∨
      (i = .constructLfsr ∧ t = s.clearError.latchLfsr) := by
  obtain rfl | rfl := hi
  · obtain ⟨e, -, ht⟩ | ⟨-, ht⟩ := exec_constructLcg_next h
    exacts [.inl ⟨e, ht⟩, .inr (.inl ⟨rfl, ht⟩)]
  · obtain ⟨e, -, ht⟩ | ⟨-, ht⟩ := exec_constructLfsr_next h
    exacts [.inl ⟨e, ht⟩, .inr (.inr ⟨rfl, ht⟩)]

/-- Settles O36: an error writes the report and `GVALID` only; a success writes the latches of its
own kind besides and leaves no error. -/
theorem constructFrame : Obligations.ConstructFrame := by
  intro i s t hi h
  obtain ⟨e, rfl⟩ | ⟨rfl, rfl⟩ | ⟨rfl, rfl⟩ := exec_construct_next hi h
  · simp [State.SameHostSide, State.SameConfiguration]
  · simp [State.SameHostSide]
  · simp [State.SameHostSide]

end Sys2Proof.Machine
end

section
/-! PROOFS. The LFSR engine and `CONSTRUCT.LFSR` (41_lfsr_engine.md). -/

namespace Sys2Proof.Machine

/-! ### The feedback -/

/-- A round of the feedback's loop adds the element at its index if that index is tapped
(41_lfsr_engine.md R142). -/
theorem feedbackUpTo_succ (taps len x n : Nat) :
    feedbackUpTo taps len x (n + 1) =
      (feedbackUpTo taps len x n).xor (taps.testBit n && seqBit len x n) := by
  rw [feedbackUpTo]
  cases taps.testBit n <;> simp

/-- The feedback's loop counts, modulo 2, the tapped indices that hold a 1 (41_lfsr_engine.md
R142). -/
theorem toNat_feedbackUpTo (taps len x n : Nat) :
    (feedbackUpTo taps len x n).toNat =
      ((Finset.range n).filter fun j =>
        taps.testBit j = true ∧ seqBit len x j = true).card % 2 := by
  induction n with
  | zero => rfl
  | succ n ih =>
    rw [Finset.card_filter, Finset.sum_range_succ, ← Finset.card_filter, Nat.add_mod, ← ih,
      feedbackUpTo_succ]
    simp only [← Bool.and_eq_true]
    cases feedbackUpTo taps len x n <;> cases taps.testBit n && seqBit len x n <;> rfl

/-- The reversed mask of a register one longer has the new index as its lowest bit
(41_lfsr_engine.md R141). -/
theorem reversedTaps_succ (taps len : Nat) :
    reversedTaps taps (len + 1) = Nat.bit (taps.testBit len) (reversedTaps taps len) := by
  have hdouble : ∀ j ∈ Finset.range len,
      (if taps.testBit j then 2 ^ (len + 1 - 1 - j) else 0) =
        2 * if taps.testBit j then 2 ^ (len - 1 - j) else 0 := fun j hj => by
    have hexp : len + 1 - 1 - j = len - 1 - j + 1 := by have := Finset.mem_range.1 hj; omega
    rw [hexp, pow_succ', mul_ite, Nat.mul_zero]
  rw [reversedTaps, Finset.sum_range_succ, Finset.sum_congr rfl hdouble, ← Finset.mul_sum,
    ← reversedTaps, Nat.bit_val]
  cases taps.testBit len <;> simp

/-- Bit `k` of the reversed mask is the tap at index `len - 1 - k` (41_lfsr_engine.md R141). -/
theorem testBit_reversedTaps (taps : Nat) {len k : Nat} (h : k < len) :
    (reversedTaps taps len).testBit k = taps.testBit (len - 1 - k) := by
  induction len generalizing k with
  | zero => exact absurd h (Nat.not_lt_zero k)
  | succ len ih =>
    rw [reversedTaps_succ]
    cases k with
    | zero => rw [Nat.testBit_bit_zero]; rfl
    | succ k =>
      rw [Nat.testBit_bit_succ, ih (Nat.lt_of_succ_lt_succ h)]
      congr 1
      omega

/-- The parity of `X & T'` is that of the tapped elements: index `j` lies at bit `len - 1 - j`
(41_lfsr_engine.md R141). -/
theorem parityOf_and_reversedTaps (taps len x : Nat) :
    parityOf len (x &&& reversedTaps taps len) =
      ((Finset.range len).filter fun j =>
        taps.testBit j = true ∧ seqBit len x j = true).card % 2 := by
  rw [parityOf, Finset.card_filter, Finset.card_filter, ← Finset.sum_range_reflect]
  refine congrArg (· % 2) (Finset.sum_congr rfl fun j hj => if_congr ?_ rfl rfl)
  have hj : j < len := Finset.mem_range.1 hj
  have hback : len - 1 - (len - 1 - j) = j := by omega
  rw [Nat.testBit_and, testBit_reversedTaps taps (by omega), hback, Bool.and_eq_true, and_comm,
    seqBit]

/-- Without taps nothing is fed back (41_lfsr_engine.md R148). -/
@[simp] theorem feedback_no_taps (len x : Nat) : feedback 0 len x = false := by
  simpa [feedback] using toNat_feedbackUpTo 0 len x len

/-- The zero register feeds 0 back (41_lfsr_engine.md R148). -/
@[simp] theorem feedback_zero_register (taps len : Nat) : feedback taps len 0 = false := by
  simpa [feedback, seqBit] using toNat_feedbackUpTo taps len 0 len

/-- Settles O15: the loop counts the tapped ones modulo 2, and reversing the mask moves tap `j` to
the bit where the register holds element `j`. -/
theorem feedbackIsParityOfTappedBits : Obligations.FeedbackIsParityOfTappedBits := fun taps x len =>
  have hcount := toNat_feedbackUpTo taps len x len
  ⟨hcount, hcount.trans (parityOf_and_reversedTaps taps len x).symm, feedback_no_taps len x⟩

/-- The feedback depends on the tapped elements of the register alone (41_lfsr_engine.md R142). -/
theorem feedbackUpTo_congr {taps len x y n : Nat}
    (h : ∀ j, j < n → taps.testBit j = true → seqBit len x j = seqBit len y j) :
    feedbackUpTo taps len x n = feedbackUpTo taps len y n := by
  induction n with
  | zero => rfl
  | succ n ih =>
    have hround : (taps.testBit n && seqBit len x n) = (taps.testBit n && seqBit len y n) := by
      cases htap : taps.testBit n with
      | false => rfl
      | true => exact congrArg _ (h n n.lt_succ_self htap)
    rw [feedbackUpTo_succ, feedbackUpTo_succ, hround, ih fun j hj => h j (Nat.lt_succ_of_lt hj)]

/-- Of two registers that agree from index 1 on, the feedback tells a tapped oldest element
(41_lfsr_engine.md R148). -/
theorem feedbackUpTo_eq_iff_oldest {taps len x y n : Nat} (htap : taps.testBit 0 = true)
    (h : ∀ j, 1 ≤ j → j ≤ n → seqBit len x j = seqBit len y j) :
    feedbackUpTo taps len x (n + 1) = feedbackUpTo taps len y (n + 1) ↔
      seqBit len x 0 = seqBit len y 0 := by
  induction n with
  | zero => simp [feedbackUpTo, htap]
  | succ n ih =>
    rw [feedbackUpTo_succ taps len x, feedbackUpTo_succ taps len y,
      h (n + 1) (Nat.succ_pos n) le_rfl, Bool.xor_left_inj]
    exact ih fun j hj hle => h j hj (Nat.le_succ_of_le hle)

/-! ### The step -/

/-- Bit 0 of the new register is the feedback (41_lfsr_engine.md R143). -/
theorem testBit_lfsrNext_zero (taps x : Nat) {len : Nat} (h : 0 < len) :
    (lfsrNext taps len x).testBit 0 = feedback taps len x := by
  rw [lfsrNext, Nat.testBit_mod_two_pow, Nat.testBit_or, Nat.testBit_bool_toNat]
  simp [h]

/-- Every other bit of the new register is the next lower one of the old (41_lfsr_engine.md
R143). -/
theorem testBit_lfsrNext_succ (taps len x k : Nat) :
    (lfsrNext taps len x).testBit (k + 1) = (decide (k + 1 < len) && x.testBit k) := by
  simp [lfsrNext, Nat.testBit_bool_toNat]

/-- Settles O16: index `j` is bit `len - 1 - j`, so moving one index down moves one bit up, and
index `len - 1` is bit 0. -/
theorem lfsrShiftBySequenceIndex : Obligations.LfsrShiftBySequenceIndex := by
  intro taps x len hlen
  refine ⟨fun j hj => ?_, ?_, rfl, lfsrNext_lt taps len x⟩
  · have hbit : len - 1 - j = len - 1 - (j + 1) + 1 := by omega
    have hin : len - 1 - (j + 1) + 1 < len := by omega
    rw [seqBit, hbit, testBit_lfsrNext_succ, decide_eq_true hin, Bool.true_and, seqBit]
  · rw [seqBit, Nat.sub_self, testBit_lfsrNext_zero taps x hlen]

/-- Two registers that agree from index 1 on and feed back the same bit have the same successor: the
shift drops index 0 (41_lfsr_engine.md R143). -/
theorem lfsrNext_congr {taps len x y : Nat} (hfb : feedback taps len x = feedback taps len y)
    (h : ∀ j, 1 ≤ j → j < len → seqBit len x j = seqBit len y j) :
    lfsrNext taps len x = lfsrNext taps len y := by
  refine Nat.eq_of_testBit_eq fun k => ?_
  cases k with
  | zero =>
    obtain rfl | hlen := Nat.eq_zero_or_pos len
    · simp [lfsrNext, Nat.mod_one]
    · rw [testBit_lfsrNext_zero taps x hlen, testBit_lfsrNext_zero taps y hlen, hfb]
  | succ k =>
    rw [testBit_lfsrNext_succ, testBit_lfsrNext_succ]
    by_cases hk : k + 1 < len
    · have hindex : len - 1 - (len - 1 - k) = k := by omega
      have hkept := h (len - 1 - k) (by omega) (by omega)
      rw [seqBit, seqBit, hindex] at hkept
      rw [hkept]
    · rw [decide_eq_false hk, Bool.false_and, Bool.false_and]

/-- With index 0 tapped, the successor determines the register: the shift keeps all its elements but
the oldest, and the feedback tells that one (41_lfsr_engine.md R148). -/
theorem lfsrNext_injOn {taps : Nat} (len : Nat) (htap : taps.testBit 0 = true) :
    Set.InjOn (lfsrNext taps len) {x | x < 2 ^ len} := by
  intro x hx y hy hnext
  have hlow : ∀ k, k + 1 < len → x.testBit k = y.testBit k := fun k hk => by
    have hbit := congrArg (Nat.testBit · (k + 1)) hnext
    simpa [testBit_lfsrNext_succ, hk] using hbit
  refine Nat.eq_of_testBit_eq fun k => ?_
  obtain hk | rfl | hk : k + 1 < len ∨ len = k + 1 ∨ len ≤ k := by omega
  · exact hlow k hk
  · have hfb : feedback taps (k + 1) x = feedback taps (k + 1) y := by
      rw [← testBit_lfsrNext_zero taps x k.succ_pos, hnext,
        testBit_lfsrNext_zero taps y k.succ_pos]
    exact (feedbackUpTo_eq_iff_oldest htap fun j hj _ => hlow _ (by omega)).1 hfb
  · have habove : 2 ^ len ≤ 2 ^ k := Nat.pow_le_pow_right Nat.two_pos hk
    rw [Nat.testBit_lt_two_pow (lt_of_lt_of_le hx habove),
      Nat.testBit_lt_two_pow (lt_of_lt_of_le hy habove)]

/-- Settles O17: an untapped index 0 is neither fed back nor kept by the shift, a tapped one is told
by the feedback. -/
theorem lfsrOldestBitDecidesInjectivity : Obligations.LfsrOldestBitDecidesInjectivity := by
  intro taps x y len
  refine ⟨fun htap h => lfsrNext_congr (feedbackUpTo_congr fun j hj hj1 => ?_) h,
    fun htap hx hy hnext => lfsrNext_injOn len htap hx hy hnext⟩
  have hne : j ≠ 0 := fun h0 => by simp [h0, htap] at hj1
  exact h j (Nat.one_le_iff_ne_zero.2 hne) hj

/-- The zero register is a fixed point: it feeds 0 back (41_lfsr_engine.md R148). -/
@[simp] theorem lfsrNext_zero_register (taps len : Nat) : lfsrNext taps len 0 = 0 := by
  simp [lfsrNext]

/-- Without taps the step only shifts (41_lfsr_engine.md R148). -/
theorem lfsrNext_no_taps (len x : Nat) : lfsrNext 0 len x = (2 * x) % 2 ^ len := by
  rw [lfsrNext, feedback_no_taps, Bool.toNat_false, Nat.or_zero, Nat.shiftLeft_eq, pow_one,
    Nat.mul_comm]

/-- Settles O19: 0 shifted is 0 and feeds back 0, without taps the step is the shift, and the two
registers of one bit that taps itself keep their value. -/
theorem lfsrCornerCases : Obligations.LfsrCornerCases := by
  intro taps x len
  refine ⟨lfsrNext_zero_register taps len, lfsrNext_no_taps len x, ?_, fun hx => ?_⟩
  · rw [lfsrNext_no_taps, pow_one, Nat.mul_mod_right]
  · obtain rfl | rfl : x = 0 ∨ x = 1 := by omega
    · exact lfsrNext_zero_register 1 1
    · decide

/-! ### The first repeat -/

/-- With an LFSR latched, the dispatched step is `LFSR.STEP` on the latches (42_sequence_runner.md
R160). -/
theorem engineStep_of_lfsr {s : State} (h : s.gKind = .lfsr) (x : Nat) :
    s.engineStep x = lfsrNext s.gTaps s.gLen.toNat x := by
  simp only [State.engineStep, h]

/-- Every raw value has the size of the generator (42_sequence_runner.md R168, 10_state.md R29). -/
theorem rawValue_lt (s : State) (x0 k : Nat) : s.rawValue x0 k < 2 ^ s.stateBits := by
  cases k <;> exact engineStep_lt s _

/-- An engine whose step is injective repeats its first value first: if a later value `e[j+1]` came
again at `p+1`, then `e[j]` came again at `p` (42_sequence_runner.md R168, R174). -/
theorem rawValue_firstRepeat_of_injOn {s : State} {x0 p : Nat}
    (hinj : Set.InjOn s.engineStep {x | x < 2 ^ s.stateBits}) (hp : s.FirstRepeat x0 p) :
    s.rawValue x0 p = s.rawValue x0 0 := by
  obtain ⟨⟨j, hjp, hrepeat⟩, hfirst⟩ := hp
  cases j with
  | zero => exact hrepeat.symm
  | succ j =>
    cases p with
    | zero => exact absurd hjp (Nat.not_lt_zero _)
    | succ p =>
      have hbefore : s.rawValue x0 j = s.rawValue x0 p :=
        hinj (rawValue_lt s x0 j) (rawValue_lt s x0 p) hrepeat
      exact absurd ⟨j, Nat.lt_of_succ_lt_succ hjp, hbefore⟩ (hfirst p p.lt_succ_self)

/-- Settles O18: with index 0 tapped the LFSR's step is injective. -/
theorem lfsrWithOldestBitTappedIsPurelyPeriodic :
    Obligations.LfsrWithOldestBitTappedIsPurelyPeriodic := by
  intro s x0 p hkind htap _ hp
  have hbits : s.stateBits = s.gLen.toNat := by rw [State.stateBits, hkind]
  have hstep : s.engineStep = lfsrNext s.gTaps s.gLen.toNat := funext (engineStep_of_lfsr hkind)
  exact rawValue_firstRepeat_of_injOn (hstep ▸ hbits ▸ lfsrNext_injOn _ htap) hp

/-! ### `CONSTRUCT.LFSR` -/

/-- `CONSTRUCT.LFSR` whose checks raise an error records it and drops the generator
(41_lfsr_engine.md R147). -/
theorem exec_constructLfsr_of_error {s : State} {e : ErrorCause} (h : s.lfsrError = some e) :
    exec .constructLfsr s = .next (s.dropGenerator.raise e) := by
  rw [exec_constructLfsr_eq, h]

/-- `CONSTRUCT.LFSR` whose checks pass clears the report and latches its operands (41_lfsr_engine.md
R147). -/
theorem exec_constructLfsr_of_checksPass {s : State} (h : s.ChecksPass .constructLfsr) :
    exec .constructLfsr s = .next s.clearError.latchLfsr := by
  rw [exec_constructLfsr_eq, (lfsrError_eq_none_iff s).2 h]

/-- Settles O20: the word is the command's encoding, and in each case the first check that applies
is the one named. -/
theorem constructLfsrMeaning : Obligations.ConstructLfsrMeaning := by
  refine ⟨decode_encode .constructLfsr, fun s => ⟨fun hlen hw htaps hseed => ?_, fun hlen => ?_,
    fun hlen hw => ?_, fun hlen hw htaps => ?_, fun hlen hw htaps hseed => ?_⟩⟩
  · have hpos : 1 ≤ s.opLen.toNat := by bv_omega
    have hfits : ∀ v, v >>> s.opLen.toNat = 0 → v < 2 ^ s.opLen.toNat := fun v hv =>
      Nat.not_le.1 fun hle => (shiftRight_ne_zero_iff v _).2 hle hv
    exact exec_constructLfsr_of_checksPass ⟨hpos, hw, hfits _ htaps, hfits _ hseed⟩
  · have herr : s.lfsrError = some .ceLenZero := if_pos hlen
    exact exec_constructLfsr_of_error herr
  · have herr : s.lfsrError = some .ceLenWide := by rw [State.lfsrError, if_neg hlen, if_pos hw]
    exact exec_constructLfsr_of_error herr
  · have herr : s.lfsrError = some .ceTapRange := by
      rw [State.lfsrError, if_neg hlen, if_neg (Nat.not_lt.2 hw), if_pos htaps]
    exact exec_constructLfsr_of_error herr
  · have herr : s.lfsrError = some .ceSeedRange := by
      rw [State.lfsrError, if_neg hlen, if_neg (Nat.not_lt.2 hw), if_neg (not_not.2 htaps),
        if_pos hseed]
    exact exec_constructLfsr_of_error herr

end Sys2Proof.Machine
end

section
/-! PROOFS. The sequence runner's loop: the first repeat of the raw sequence, `OUT`, the recording of
the first repeat, and the loop with and without `stop` (42_sequence_runner.md). -/

namespace Sys2Proof.Machine

/-! ### The first repeat of the raw sequence -/

/-- No value is a repeat before any was produced (42_sequence_runner.md R168). -/
theorem not_repeatAt_zero (s : State) (x0 : Nat) : ¬ s.RepeatAt x0 0 :=
  fun ⟨_, hj, _⟩ => absurd hj (Nat.not_lt_zero _)

/-- Below an index up to which no step is a repeat, the raw values are pairwise distinct. -/
theorem rawValue_ne_of_no_repeat {s : State} {x0 p : Nat} (h : ∀ j, j < p → ¬ s.RepeatAt x0 j)
    {j k : Nat} (hjk : j < k) (hk : k < p) : s.rawValue x0 j ≠ s.rawValue x0 k :=
  fun heq => h k hk ⟨j, hjk, heq⟩

/-- If step `p` repeats a value, every value is one of the first `p`: the engine takes equal values
to equal values (42_sequence_runner.md R174). -/
theorem State.RepeatAt.exists_lt {s : State} {x0 p : Nat} (h : s.RepeatAt x0 p) (k : Nat) :
    ∃ j, j < p ∧ s.rawValue x0 j = s.rawValue x0 k := by
  obtain ⟨i, hip, hi⟩ := h
  induction k with
  | zero => exact ⟨0, Nat.zero_lt_of_lt hip, rfl⟩
  | succ k ih =>
    obtain ⟨j, hjp, hj⟩ := ih
    have hnext : s.rawValue x0 (j + 1) = s.rawValue x0 (k + 1) := congrArg s.engineStep hj
    obtain hlt | rfl := Nat.lt_or_eq_of_le (Nat.succ_le_of_lt hjp)
    · exact ⟨j + 1, hlt, hnext⟩
    · exact ⟨i, hip, hi.trans hnext⟩

/-- `p` is the preperiod of the first `n` raw values: the index of the first repeat among them, or
`n` if there is none (42_sequence_runner.md R168). -/
structure State.PreperiodIn (s : State) (x0 n p : Nat) : Prop where
  le : p ≤ n
  noRepeatBelow : ∀ j, j < p → ¬ s.RepeatAt x0 j
  repeatAt : p < n → s.RepeatAt x0 p

/-- A first repeat within the first `n` raw values is their preperiod. -/
theorem State.PreperiodIn.of_firstRepeat {s : State} {x0 n p : Nat} (h : s.FirstRepeat x0 p)
    (hn : p ≤ n) : s.PreperiodIn x0 n p := ⟨hn, h.2, fun _ => h.1⟩

/-- Without a repeat the preperiod is the number of values. -/
theorem State.PreperiodIn.of_no_repeat {s : State} {x0 n : Nat}
    (h : ∀ j, j < n → ¬ s.RepeatAt x0 j) : s.PreperiodIn x0 n n :=
  ⟨le_rfl, h, fun hlt => absurd hlt (lt_irrefl n)⟩

/-- The preperiod is at least the index up to which no step is a repeat. -/
theorem State.PreperiodIn.le_of_no_repeat {s : State} {x0 n p m : Nat} (h : s.PreperiodIn x0 n p)
    (hm : m ≤ n) (hno : ∀ j, j < m → ¬ s.RepeatAt x0 j) : m ≤ p := by
  by_contra hlt
  exact hno p (Nat.lt_of_not_le hlt) (h.repeatAt (by omega))

/-- The first `n` raw values have one preperiod. -/
theorem State.PreperiodIn.unique {s : State} {x0 n p p' : Nat} (h : s.PreperiodIn x0 n p)
    (h' : s.PreperiodIn x0 n p') : p = p' :=
  le_antisymm (h'.le_of_no_repeat h.le h.noRepeatBelow) (h.le_of_no_repeat h'.le h'.noRepeatBelow)

/-- The first of at least one values is no repeat. -/
theorem State.PreperiodIn.pos {s : State} {x0 n p : Nat} (h : s.PreperiodIn x0 n p) (hn : 1 ≤ n) :
    1 ≤ p :=
  h.le_of_no_repeat hn fun _ hj => Nat.lt_one_iff.1 hj ▸ not_repeatAt_zero s x0

/-- The first `n` raw values take no other values than those below their preperiod. -/
theorem State.PreperiodIn.image_rawValue {s : State} {x0 n p : Nat} (h : s.PreperiodIn x0 n p) :
    (Finset.range n).image (s.rawValue x0) = (Finset.range p).image (s.rawValue x0) := by
  obtain rfl | hlt := Nat.eq_or_lt_of_le h.le
  · rfl
  · refine (Finset.image_subset_iff.2 fun k _ => ?_).antisymm
      (Finset.image_subset_image (Finset.range_mono h.le))
    obtain ⟨j, hj, heq⟩ := (h.repeatAt hlt).exists_lt k
    exact Finset.mem_image.2 ⟨j, Finset.mem_range.2 hj, heq⟩

/-- The first `n` raw values comprise as many distinct ones as their preperiod says
(42_sequence_runner.md R174). -/
theorem State.PreperiodIn.card_image_rawValue {s : State} {x0 n p : Nat}
    (h : s.PreperiodIn x0 n p) : ((Finset.range n).image (s.rawValue x0)).card = p := by
  have hinj : Set.InjOn (s.rawValue x0) (Finset.range p) := by
    intro j hj k hk heq
    obtain hlt | rfl | hlt := Nat.lt_trichotomy j k
    · exact absurd heq (rawValue_ne_of_no_repeat h.noRepeatBelow hlt (by simpa using hk))
    · rfl
    · exact absurd heq.symm (rawValue_ne_of_no_repeat h.noRepeatBelow hlt (by simpa using hj))
  rw [h.image_rawValue, Finset.card_image_of_injOn hinj, Finset.card_range]

/-- Among one more values than the generator has states, one is a repeat. -/
theorem exists_repeatAt_le (s : State) (x0 : Nat) :
    ∃ p, p ≤ 2 ^ s.stateBits ∧ s.RepeatAt x0 p := by
  by_contra hno
  have hdistinct := State.PreperiodIn.of_no_repeat (s := s) (x0 := x0) (n := 2 ^ s.stateBits + 1)
    fun j hj hr => hno ⟨j, Nat.le_of_lt_succ hj, hr⟩
  have hstates : (Finset.range (2 ^ s.stateBits + 1)).image (s.rawValue x0) ⊆
      Finset.range (2 ^ s.stateBits) :=
    Finset.image_subset_iff.2 fun k _ => Finset.mem_range.2 (rawValue_lt s x0 k)
  have hcard := Finset.card_le_card hstates
  rw [hdistinct.card_image_rawValue, Finset.card_range] at hcard
  omega

/-- Settles O32: by `exists_repeatAt_le` there is a repeat within the number of states, and so a first
one; it is not at index 0, which has no earlier value. -/
theorem everySequenceRepeats : Obligations.EverySequenceRepeats := by
  classical
  intro s x0
  obtain ⟨k, hk, hrepeat⟩ := exists_repeatAt_le s x0
  have hexists : ∃ p, s.RepeatAt x0 p := ⟨k, hrepeat⟩
  refine ⟨Nat.find hexists, ?_, (Nat.find_min' hexists hrepeat).trans hk, Nat.find_spec hexists,
    fun j hj => Nat.find_min hexists hj⟩
  rw [Nat.one_le_iff_ne_zero]
  intro hzero
  exact not_repeatAt_zero s x0 (hzero ▸ Nat.find_spec hexists)

/-! ### `OUT` -/

/-- An entry that reads as a value is listed. -/
theorem OutBuffer.mem_of_read_eq {m : OutBuffer} {k v : Nat} (h : OutBuffer.read m k = some v) :
    (k, v) ∈ m := by
  induction m with
  | nil => simp at h
  | cons e rest ih =>
    obtain ⟨j, w⟩ := e
    rw [OutBuffer.read] at h
    split at h
    · next hk =>
      cases h
      exact hk ▸ List.mem_cons_self
    · exact List.mem_cons_of_mem _ (ih h)

/-- In canonical form `OUT` is determined by what its entries read as. -/
theorem OutBuffer.eq_of_read_eq {m m' : OutBuffer} (hm : OutBuffer.wf m = true)
    (hm' : OutBuffer.wf m' = true) (h : ∀ k, OutBuffer.read m k = OutBuffer.read m' k) : m = m' := by
  have hmem : ∀ e, e ∈ m ↔ e ∈ m' := fun ⟨k, v⟩ =>
    ⟨fun he => mem_of_read_eq ((h k).symm.trans (read_eq_of_mem hm he)),
      fun he => mem_of_read_eq ((h k).trans (read_eq_of_mem hm' he))⟩
  have hnodup : ∀ {l : OutBuffer}, OutBuffer.wf l = true → l.Nodup := fun hl =>
    ((OutBuffer.wf_iff _).1 hl).imp fun hlt heq => hlt.ne (congrArg Prod.fst heq)
  refine ((List.perm_ext_iff_of_nodup (hnodup hm) (hnodup hm')).2 hmem).eq_of_pairwise
    (fun a b _ _ hab hba => absurd (hab.trans hba) (lt_irrefl _))
    ((OutBuffer.wf_iff m).1 hm) ((OutBuffer.wf_iff m').1 hm')

/-- The entries below `len` hold what a run that starts from `x0` emitted, projected by `q`, and the
others are those of `out` (20_memory.md R64, R65). -/
structure RunVars.OutExact (s : State) (x0 : Nat) (q : Option Nat) (out : OutBuffer) (v : RunVars) :
    Prop where
  emitted : ∀ k, k < v.len → OutBuffer.read v.out k = some (project q (s.rawValue x0 k))
  kept : ∀ k, v.len ≤ k → OutBuffer.read v.out k = OutBuffer.read out k

/-- The round that emits `e[len]` writes entry `len` and no other. -/
theorem RunVars.OutExact.round {s : State} {x0 : Nat} {q : Option Nat} {out : OutBuffer}
    {v : RunVars} (h : v.OutExact s x0 q out) :
    ((v.detect (s.rawValue x0 v.len)).emit q (s.rawValue x0 v.len)).OutExact s x0 q out := by
  constructor <;> intro k hk <;>
    simp only [RunVars.emit_len, RunVars.emit_out, RunVars.detect_len, RunVars.detect_out] at hk ⊢
  · obtain rfl | hne := eq_or_ne k v.len
    · exact OutBuffer.read_write_same _ _ _
    · rw [OutBuffer.read_write_ne _ _ hne]
      exact h.emitted k (by omega)
  · rw [OutBuffer.read_write_ne _ _ (by omega)]
    exact h.kept k (by omega)

/-- After any number of rounds from a start with nothing emitted, `OUT` holds the values emitted and
is otherwise what it was. -/
theorem runLoop_outExact (s : State) (stop : Bool) (q : Option Nat) (n : Nat) {v : RunVars}
    (h : v.len = 0) : (s.runLoop stop q n v).OutExact s v.x q v.out := by
  refine runLoop_induct_rawValue (x0 := v.x) (RunVars.OutExact s v.x q v.out)
    (fun u hu _ _ => ⟨by simpa using hu.emitted, by simpa using hu.kept⟩) (fun u hu _ => hu.round)
    n v (by rw [h]; rfl) ⟨fun k hk => ?_, fun _ _ => rfl⟩
  exact absurd (h ▸ hk) (Nat.not_lt_zero k)

/-- The loop keeps the canonical form of `OUT`. -/
theorem runLoop_out_wf (s : State) (stop : Bool) (q : Option Nat) (n : Nat) {v : RunVars}
    (h : OutBuffer.wf v.out = true) : OutBuffer.wf (s.runLoop stop q n v).out = true :=
  runLoop_induct (fun u => OutBuffer.wf u.out = true) (fun u hu _ => by simpa using hu)
    (fun u hu => by simpa using OutBuffer.write_wf _ _ hu) n v h

/-- The value a run emits is the projection by the run's modulus (42_sequence_runner.md R166). -/
theorem project_modulusOf_rawValue (s : State) (moden : Bool) (x0 k : Nat) :
    project (s.modulusOf moden) (s.rawValue x0 k) = s.emitted moden x0 k := by
  cases moden <;> rfl

/-- `OUT` after any number of rounds of a run (20_memory.md R64). -/
theorem runLoop_outHoldsRun (s : State) (stop moden reseed : Bool) (n : Nat) :
    s.OutHoldsRun moden (s.startOf reseed)
      (s.runLoop stop (s.modulusOf moden) n (s.runStart reseed)).len
      (s.runLoop stop (s.modulusOf moden) n (s.runStart reseed)).out := by
  have hexact := runLoop_outExact s stop (s.modulusOf moden) n (s.runStart_len reseed)
  exact ⟨fun k hk => (hexact.emitted k hk).trans
    (congrArg some (project_modulusOf_rawValue s moden _ k)), hexact.kept⟩

/-- The working variables with another `OUT`. -/
def RunVars.withOut (out : OutBuffer) (v : RunVars) : RunVars := { v with out := out }

/-- The engine step and the recording of a first repeat do not touch `OUT`. -/
theorem RunVars.detect_withOut (raw : Nat) (out : OutBuffer) (v : RunVars) :
    (v.withOut out).detect raw = (v.detect raw).withOut out := by
  rw [RunVars.detect, RunVars.detect, apply_ite (RunVars.withOut out)]
  rfl

/-- Neither what `OUT` holds at the start nor the modulus affects what the loop leaves but in `OUT`
(42_sequence_runner.md R166). -/
theorem runLoop_withOut (s : State) (stop : Bool) (q q' : Option Nat) (n : Nat) (v : RunVars)
    (out : OutBuffer) :
    ∃ out', s.runLoop stop q' n (v.withOut out) = (s.runLoop stop q n v).withOut out' := by
  induction n generalizing v out with
  | zero => exact ⟨out, rfl⟩
  | succ n ih =>
    rw [State.runLoop, State.runLoop, RunVars.detect_withOut]
    by_cases hend : histContains v.visited (s.engineStep v.x) = true ∧ stop = true
    · exact ⟨out, by rw [if_pos hend]; exact if_pos hend⟩
    · rw [if_neg hend]
      obtain ⟨out', hout'⟩ := ih ((v.detect (s.engineStep v.x)).emit q (s.engineStep v.x))
        (OutBuffer.write out (v.detect (s.engineStep v.x)).len (project q' (s.engineStep v.x)))
      exact ⟨out', (if_neg hend).trans hout'⟩

/-! ### The recording of the first repeat -/

/-- What is recorded is the first repeat, and while nothing is, no value emitted was one
(42_sequence_runner.md R165). -/
structure RunVars.RepeatRecorded (s : State) (x0 : Nat) (v : RunVars) : Prop where
  first : v.pset = true → s.FirstRepeat x0 v.pre ∧ v.pre ≤ v.len
  noneYet : v.pset = false → ∀ j, j < v.len → ¬ s.RepeatAt x0 j

/-- A step is a repeat iff its value was visited. -/
theorem RunVars.VisitedExact.mem_iff_repeatAt {s : State} {x0 : Nat} {v : RunVars}
    (h : v.VisitedExact s x0) : s.rawValue x0 v.len ∈ v.visited ↔ s.RepeatAt x0 v.len :=
  h.mem_iff _

/-- The test of `e[len]` records it only if nothing is recorded yet and it was visited. -/
theorem RunVars.RepeatRecorded.detect {s : State} {x0 : Nat} {v : RunVars}
    (h : v.RepeatRecorded s x0) (hv : v.VisitedExact s x0) :
    (v.detect (s.rawValue x0 v.len)).RepeatRecorded s x0 where
  first := by
    intro hset
    simp only [RunVars.detect_pre, RunVars.detect_len]
    split
    · next hnew =>
      obtain ⟨hseen, hunset⟩ := hnew
      rw [hv.indexIsLen]
      exact ⟨⟨hv.mem_iff_repeatAt.1 ((histContains_iff _ _).1 hseen), h.noneYet hunset⟩, le_rfl⟩
    · next hold =>
      refine h.first ?_
      cases hp : v.pset with
      | true => rfl
      | false => exact absurd ⟨by simpa [hp] using hset, hp⟩ hold
  noneYet := by
    intro hunset
    obtain ⟨hp, -⟩ : v.pset = false ∧ _ := by simpa using hunset
    simpa using h.noneYet hp

/-- The round that emits `e[len]` keeps it: with nothing recorded, `e[len]` was not visited. -/
theorem RunVars.RepeatRecorded.round {s : State} {x0 : Nat} {v : RunVars}
    (h : v.RepeatRecorded s x0) (hv : v.VisitedExact s x0) (q : Option Nat) :
    ((v.detect (s.rawValue x0 v.len)).emit q (s.rawValue x0 v.len)).RepeatRecorded s x0 where
  first := fun hset => ((h.detect hv).first hset).imp_right Nat.le_succ_of_le
  noneYet := by
    intro hunset j hj
    obtain ⟨hp, hnew⟩ : v.pset = false ∧ s.rawValue x0 v.len ∉ v.visited := by
      simpa [← Bool.not_eq_true] using hunset
    obtain hlt | rfl := Nat.lt_succ_iff_lt_or_eq.1 (by simpa using hj : j < v.len + 1)
    · exact h.noneYet hp j hlt
    · exact fun hr => hnew (hv.mem_iff_repeatAt.2 hr)

/-- After any number of rounds the recording is exact. -/
theorem runLoop_repeatRecorded (s : State) (stop reseed : Bool) (q : Option Nat) (n : Nat) :
    (s.runLoop stop q n (s.runStart reseed)).RepeatRecorded s (s.startOf reseed) := by
  have hboth := runLoop_induct_rawValue (stop := stop) (q := q) (x0 := s.startOf reseed)
    (fun v => v.VisitedExact s (s.startOf reseed) ∧ v.RepeatRecorded s (s.startOf reseed))
    (fun _ ⟨hexact, hrec⟩ _ _ => ⟨hexact.detect _, hrec.detect hexact⟩)
    (fun v ⟨hexact, hrec⟩ _ =>
      ⟨by simpa using (hexact.detect (s.rawValue _ v.len)).emit q, hrec.round hexact q⟩)
    n (s.runStart reseed) rfl ⟨runStart_visitedExact s _ reseed, nofun, nofun⟩
  exact hboth.2

/-- The preperiod of a run is that of the values it emitted (42_sequence_runner.md R168). -/
theorem RunVars.RepeatRecorded.preperiodIn {s : State} {x0 : Nat} {v : RunVars}
    (h : v.RepeatRecorded s x0) : s.PreperiodIn x0 v.len v.preperiod := by
  unfold RunVars.preperiod
  cases hp : v.pset with
  | true => exact .of_firstRepeat (h.first hp).1 (h.first hp).2
  | false => exact .of_no_repeat (h.noneYet hp)

/-! ### The loop with `stop = 0` -/

/-- The last round of a run with `stop = 0` starts from what the rounds before it leave. -/
theorem runLoop_full_succ (q : Option Nat) (s : State) (n : Nat) (v : RunVars) :
    s.runLoop false q (n + 1) v =
      ((s.runLoop false q n v).detect (s.engineStep (s.runLoop false q n v).x)).emit q
        (s.engineStep (s.runLoop false q n v).x) := by
  induction n generalizing v with
  | zero => exact runLoop_go (.inl rfl)
  | succ n ih => rw [runLoop_go (.inl rfl), ih, ← runLoop_go (.inl rfl)]

/-- With `stop = 0` every round emits a value (42_sequence_runner.md R170). -/
@[simp] theorem runLoop_full_len (q : Option Nat) (s : State) (n : Nat) (v : RunVars) :
    (s.runLoop false q n v).len = v.len + n := by
  induction n with
  | zero => rfl
  | succ n ih => rw [runLoop_full_succ, RunVars.emit_len, RunVars.detect_len, ih, Nat.add_assoc]

/-- After `n` rounds with `stop = 0` the engine is one step before `e[n]`. -/
theorem engineStep_runLoop_full (q : Option Nat) (s : State) (n : Nat) (v : RunVars) :
    s.engineStep (s.runLoop false q n v).x = s.rawValue v.x n := by
  induction n with
  | zero => rfl
  | succ n ih => rw [runLoop_full_succ, RunVars.emit_x, RunVars.detect_x, ih, State.rawValue_succ]

/-- With `stop = 0` the register holds the last raw value (42_sequence_runner.md R170). -/
theorem runLoop_full_x (q : Option Nat) (s : State) {n : Nat} (hn : 1 ≤ n) (v : RunVars) :
    (s.runLoop false q n v).x = s.rawValue v.x (n - 1) := by
  obtain ⟨m, rfl⟩ := Nat.exists_eq_add_of_le' hn
  rw [runLoop_full_succ, RunVars.emit_x, RunVars.detect_x, engineStep_runLoop_full,
    Nat.add_sub_cancel]

/-- After `n` rounds with `stop = 0`, `e[n]` was visited iff step `n` is a repeat. -/
theorem mem_runLoop_full_visited_iff (s : State) (reseed : Bool) (q : Option Nat) (n : Nat) :
    s.rawValue (s.startOf reseed) n ∈ (s.runLoop false q n (s.runStart reseed)).visited ↔
      s.RepeatAt (s.startOf reseed) n := by
  simpa using (runLoop_visitedExact s false reseed q n).mem_iff_repeatAt

/-- From a repeat on nothing new is visited (42_sequence_runner.md R174). -/
theorem runLoop_full_visited_of_repeatAt {s : State} {reseed : Bool} {p n : Nat}
    (h : s.RepeatAt (s.startOf reseed) p) (q : Option Nat) (hn : p ≤ n) :
    (s.runLoop false q n (s.runStart reseed)).visited =
      (s.runLoop false q p (s.runStart reseed)).visited := by
  induction n, hn using Nat.le_induction with
  | base => rfl
  | succ n hn ih =>
    obtain ⟨j, hj, heq⟩ := h.exists_lt n
    have hseen := (mem_runLoop_full_visited_iff s reseed q n).2 ⟨j, hj.trans_le hn, heq⟩
    rw [runLoop_full_succ, engineStep_runLoop_full, RunVars.emit_visited, RunVars.detect_visited,
      ← ih]
    exact if_pos hseen

/-! ### The loop with `stop = 1` -/

/-- Until a step is a repeat, a run with `stop = 1` goes as one with `stop = 0`
(42_sequence_runner.md R171). -/
theorem runLoop_stop_add {s : State} {reseed : Bool} (q : Option Nat) (m n : Nat)
    (h : ∀ j, j < m → ¬ s.RepeatAt (s.startOf reseed) j) :
    s.runLoop true q (m + n) (s.runStart reseed) =
      s.runLoop true q n (s.runLoop false q m (s.runStart reseed)) := by
  induction m generalizing n with
  | zero => rw [Nat.zero_add]; rfl
  | succ m ih =>
    have hnew := mt (mem_runLoop_full_visited_iff s reseed q m).1 (h m m.lt_succ_self)
    rw [Nat.add_right_comm, Nat.add_assoc, ih _ fun j hj => h j (Nat.lt_succ_of_lt hj),
      runLoop_full_succ]
    exact runLoop_go (.inr (by rwa [engineStep_runLoop_full]))

/-- Without a repeat within the budget a run with `stop = 1` is that with `stop = 0`. -/
theorem runLoop_stop_of_no_repeat {s : State} {reseed : Bool} (q : Option Nat) {n : Nat}
    (h : ∀ j, j < n → ¬ s.RepeatAt (s.startOf reseed) j) :
    s.runLoop true q n (s.runStart reseed) = s.runLoop false q n (s.runStart reseed) :=
  runLoop_stop_add q n 0 h

/-- At the first repeat a run with `stop = 1` ends with the engine step taken and the repeat recorded
(42_sequence_runner.md R167, R171). -/
theorem runLoop_stop_of_firstRepeat {s : State} {reseed : Bool} (q : Option Nat) {n p : Nat}
    (h : s.FirstRepeat (s.startOf reseed) p) (hp : p < n) :
    s.runLoop true q n (s.runStart reseed) =
      (s.runLoop false q p (s.runStart reseed)).detect (s.rawValue (s.startOf reseed) p) := by
  obtain ⟨left, rfl⟩ := Nat.exists_eq_add_of_lt hp
  have hstep := engineStep_runLoop_full q s p (s.runStart reseed)
  have hseen := (mem_runLoop_full_visited_iff s reseed q p).2 h.1
  rw [Nat.add_assoc, runLoop_stop_add q p _ h.2, runLoop_stop (by rwa [hstep]), hstep]
  rfl

/-- With `stop = 1` a run emits as many values as the preperiod of its budget. -/
theorem runLoop_stop_len {s : State} {reseed : Bool} (q : Option Nat) {n p : Nat}
    (h : s.PreperiodIn (s.startOf reseed) n p) :
    (s.runLoop true q n (s.runStart reseed)).len = p := by
  obtain rfl | hlt := Nat.eq_or_lt_of_le h.le
  · simp [runLoop_stop_of_no_repeat q h.noRepeatBelow]
  · simp [runLoop_stop_of_firstRepeat q ⟨h.repeatAt hlt, h.noRepeatBelow⟩ hlt]

/-- With or without `stop`, the preperiod of a run is that of its budget (42_sequence_runner.md R168,
R170). -/
theorem runLoop_preperiodIn (s : State) (stop reseed : Bool) (q : Option Nat) (n : Nat) :
    s.PreperiodIn (s.startOf reseed) n (s.runLoop stop q n (s.runStart reseed)).preperiod := by
  have hfull := (runLoop_repeatRecorded s false reseed q n).preperiodIn
  rw [runLoop_full_len, State.runStart_len, Nat.zero_add] at hfull
  cases stop with
  | false => exact hfull
  | true =>
    have hstop := (runLoop_repeatRecorded s true reseed q n).preperiodIn
    rw [runLoop_stop_len q hfull] at hstop
    rwa [hstop.unique (.of_no_repeat hfull.noRepeatBelow)]

end Sys2Proof.Machine
end

section
/-! PROOFS. `RUN`: what it answers, what it leaves unchanged and what it depends on
(42_sequence_runner.md). -/

namespace Sys2Proof.Machine

/-! ### What a `RUN` answers -/

/-- A `RUN` whose entry checks raise an error records it and drops the result
(42_sequence_runner.md R162). -/
theorem exec_run_of_error {s : State} {moden : Bool} {e : ErrorCause} (h : s.runError moden = some e)
    (stop reseed : Bool) : exec (.run stop moden reseed) s = .next (s.dropResult.raise e) := by
  rw [exec_run_eq, h]

/-- The working variables with which a `RUN` whose entry checks pass ends. -/
abbrev State.finalVars (stop moden reseed : Bool) (s : State) : RunVars :=
  s.runLoop stop (s.modulusOf moden) s.opN (s.runStart reseed)

/-- A `RUN` whose entry checks pass clears the report and commits (42_sequence_runner.md R169). -/
theorem exec_run_of_ready {s : State} {moden : Bool} (h : s.RunReady moden) (stop reseed : Bool) :
    exec (.run stop moden reseed) s =
      .next (s.clearError.commitRun (s.finalVars stop moden reseed)) := by
  rw [exec_run_eq, (runError_eq_none_iff moden s).2 h]

/-- A commit after the report was cleared, register by register (42_sequence_runner.md R175). -/
theorem commitRun_clearError_eq (s : State) (v : RunVars) :
    s.clearError.commitRun v = { s with
      errKind := 0#2, errCause := 0#4, x := v.x, out := v.out, resPreperiod := v.preperiod,
      resLen := v.len, rValid := true } := rfl

/-- The state that a `RUN` whose entry checks pass answers is the committed one. -/
theorem eq_commitRun_of_ready {s t : State} {stop moden reseed : Bool} (hr : s.RunReady moden)
    (h : exec (.run stop moden reseed) s = .next t) :
    t = s.clearError.commitRun (s.finalVars stop moden reseed) := by
  rw [exec_run_of_ready hr] at h
  exact (Host.Outcome.next.inj h).symm

/-- Settles O6: each command's equation names the next state. -/
theorem everyCommandEnds : Obligations.EveryCommandEnds
  | .constructLcg, s => ⟨_, exec_constructLcg_eq s⟩
  | .constructLfsr, s => ⟨_, exec_constructLfsr_eq s⟩
  | .run stop moden reseed, s => ⟨_, exec_run_eq stop moden reseed s⟩

/-- Settles O22: in each case the first check that applies is the one named. -/
theorem runEntryChecksInOrder : Obligations.RunEntryChecksInOrder := by
  intro s stop moden reseed
  refine ⟨fun hg => exec_run_of_no_generator hg stop moden reseed, fun hg hn => ?_,
    fun hg hcap hn => ?_, fun hg hn hcap hmod hq => ?_,
    fun hr => ⟨_, exec_run_of_ready hr stop reseed, rfl, rfl, rfl⟩⟩
  · have herr : s.runError moden = some .iaNZero := by
      rw [State.runError, if_neg (by simp [hg]), if_pos hn]
    exact exec_run_of_error herr stop reseed
  · have herr : s.runError moden = some .iaNCap := by
      rw [State.runError, if_neg (by simp [hg]), if_neg hn, if_pos hcap]
    exact exec_run_of_error herr stop reseed
  · have herr : s.runError moden = some .iaModZero := by
      rw [State.runError, if_neg (by simp [hg]), if_neg hn, if_neg (Nat.not_lt.2 hcap),
        if_pos ⟨hmod, hq⟩]
    exact exec_run_of_error herr stop reseed

/-- Settles O37: a failed run writes the report and `RVALID` only; a successful one writes the
entries of `OUT` it emits, the result registers and `X` besides. -/
theorem runFrame : Obligations.RunFrame := by
  intro s t stop moden reseed h
  refine ⟨?_, exec_run_sameConfiguration h, ?_⟩ <;>
    obtain ⟨e, -, rfl⟩ | ⟨-, rfl⟩ := exec_run_next h
  · simp [State.SameHostSide]
  · simp [State.SameHostSide]
  · exact ⟨rfl, nofun, fun _ => ⟨rfl, rfl, rfl, fun _ => rfl⟩⟩
  · exact ⟨rfl, fun _ => (runLoop_outHoldsRun s stop moden reseed s.opN).2, nofun⟩

/-- A successful run with `stop = 0` (42_sequence_runner.md R170). -/
theorem exec_run_full {s : State} {moden : Bool} (hr : s.RunReady moden) (reseed : Bool) :
    exec (.run false moden reseed) s = .next { s with
      errKind := 0#2, errCause := 0#4, x := s.rawValue (s.startOf reseed) (s.opN - 1)
      out := (s.finalVars false moden reseed).out
      resPreperiod := (s.finalVars false moden reseed).preperiod
      resLen := s.opN, rValid := true } := by
  have ⟨_, hpos, _⟩ := hr
  rw [exec_run_of_ready hr, commitRun_clearError_eq, runLoop_full_len, runLoop_full_x _ _ hpos,
    State.runStart_len, Nat.zero_add]
  rfl

/-- Settles O23: up to the first repeat the loop goes as with `stop = 0`, and it ends there with the
repeated value in `X`. -/
theorem stoppingRunEndsAtFirstRepeat : Obligations.StoppingRunEndsAtFirstRepeat := by
  intro s moden reseed hr
  refine ⟨fun p hp hfirst => ?_, fun hno => ?_⟩
  · have hin : s.PreperiodIn (s.startOf reseed) s.opN p := .of_firstRepeat hfirst hp.le
    have hlen : (s.finalVars true moden reseed).len = p := runLoop_stop_len _ hin
    have hpre : (s.finalVars true moden reseed).preperiod = p :=
      (runLoop_preperiodIn s true reseed _ _).unique hin
    have hx : (s.finalVars true moden reseed).x = s.rawValue (s.startOf reseed) p := by
      rw [State.finalVars, runLoop_stop_of_firstRepeat _ hfirst hp, RunVars.detect_x]
    have hrun := exec_run_of_ready hr true reseed
    rw [commitRun_clearError_eq, hlen, hpre, hx] at hrun
    refine ⟨⟨_, hrun, ?_⟩, fun j k => rawValue_ne_of_no_repeat hfirst.2, fun t ht => ?_⟩
    · have hout := runLoop_outHoldsRun s true moden reseed s.opN
      rwa [hlen] at hout
    · cases hrun.symm.trans ht
      rfl
  · have hsame : exec (.run true moden reseed) s = exec (.run false moden reseed) s := by
      rw [exec_run_of_ready hr, exec_run_of_ready hr, State.finalVars,
        runLoop_stop_of_no_repeat _ hno]
    have hpre : (s.finalVars false moden reseed).preperiod = s.opN :=
      (runLoop_preperiodIn s false reseed _ _).unique (.of_no_repeat hno)
    have hrun := exec_run_full hr reseed
    rw [hpre] at hrun
    have hout := runLoop_outHoldsRun s false moden reseed s.opN
    rw [runLoop_full_len, State.runStart_len, Nat.zero_add] at hout
    exact ⟨hsame, _, hsame.trans hrun, hout⟩

/-- Settles O24: the two runs have the preperiod of one budget, and `OUT` holds the values emitted
after each. -/
theorem fullRunEmitsTheWholeBudget : Obligations.FullRunEmitsTheWholeBudget := by
  intro s moden reseed hr
  have hin := runLoop_preperiodIn s false reseed (s.modulusOf moden) s.opN
  have hfull := runLoop_outHoldsRun s false moden reseed s.opN
  have hstop := runLoop_outHoldsRun s true moden reseed s.opN
  rw [runLoop_full_len, State.runStart_len, Nat.zero_add] at hfull
  rw [runLoop_stop_len _ hin] at hstop
  refine ⟨_, _, exec_run_full hr reseed, hfull,
    fun p hp hfirst => hin.unique (.of_firstRepeat hfirst hp.le),
    fun hno => hin.unique (.of_no_repeat hno), _, exec_run_of_ready hr true reseed,
    (runLoop_preperiodIn s true reseed _ _).unique hin, runLoop_stop_len _ hin, fun k hk => ?_⟩
  exact (hstop.1 k hk).trans (hfull.1 k (hk.trans_le hin.le)).symm

/-- Settles O25: the bounds are those of the preperiod in the budget and in the values emitted. -/
theorem runResultBounds : Obligations.RunResultBounds := by
  intro s t stop moden reseed hr h
  obtain rfl := eq_commitRun_of_ready hr h
  obtain ⟨-, hpos, -, hq⟩ := hr
  have hlen := runLoop_runStart_len_pos (stop := stop) (reseed := reseed) (s := s)
    (q := s.modulusOf moden) hpos
  have hbudget := runLoop_preperiodIn s stop reseed (s.modulusOf moden) s.opN
  have hemitted := (runLoop_repeatRecorded s stop reseed (s.modulusOf moden) s.opN).preperiodIn
  refine ⟨hlen, runLoop_runStart_len_le s stop reseed _ _, ?_, hemitted.pos hlen, hemitted.le,
    ⟨fun heq => heq ▸ hbudget.noRepeatBelow, fun hno => hbudget.unique (.of_no_repeat hno)⟩,
    fun j k => rawValue_ne_of_no_repeat hemitted.noRepeatBelow, fun k hk => ?_, rawValue_lt s _⟩
  · rintro rfl
    simp
  · refine ⟨_, (runLoop_outHoldsRun s stop moden reseed s.opN).1 k hk, ?_, ?_⟩ <;> rintro rfl
    · exact ⟨rfl, Nat.mod_lt _ (Nat.pos_of_ne_zero (hq rfl))⟩
    · rfl

/-- Settles O31: the number of distinct values is the preperiod of the values emitted, and a repeat
repeats for good. -/
theorem preperiodCountsDistinctValues : Obligations.PreperiodCountsDistinctValues := by
  intro s t stop moden reseed hr h
  obtain rfl := eq_commitRun_of_ready hr h
  have hemitted := (runLoop_repeatRecorded s stop reseed (s.modulusOf moden) s.opN).preperiodIn
  refine ⟨hemitted.card_image_rawValue, fun p hfirst => ⟨fun hp => ?_, fun k hk => ?_, fun n hn => ?_,
    fun q n hn => runLoop_full_visited_of_repeatAt hfirst.1 q hn⟩⟩
  · exact (runLoop_preperiodIn s stop reseed _ _).unique (.of_firstRepeat hfirst hp.le)
  · exact (hfirst.1.exists_lt k).imp fun _ => And.imp_left (·.trans_le hk)
  · exact (State.PreperiodIn.of_firstRepeat hfirst hn).card_image_rawValue

/-! ### What a `RUN` depends on -/

/-- Settles O26: the modulus enters the loop at the writes of `OUT` only. -/
theorem projectionChangesOnlyOut : Obligations.ProjectionChangesOnlyOut := by
  intro s t t' stop moden moden' reseed q hr hr' h h'
  obtain rfl := eq_commitRun_of_ready hr h
  obtain rfl := eq_commitRun_of_ready hr' h'
  have hengine : ({ s with opModulus := q } : State).engineStep = s.engineStep := rfl
  obtain ⟨out', hout'⟩ := runLoop_withOut s stop (s.modulusOf moden)
    (({ s with opModulus := q } : State).modulusOf moden') s.opN (s.runStart reseed) s.out
  have hloop : ({ s with opModulus := q } : State).finalVars stop moden' reseed =
      (s.finalVars stop moden reseed).withOut out' :=
    (runLoop_congr hengine _ _ _ _).trans hout'
  rw [hloop]
  rfl

/-- With `RESEED = 1` the loops of two states with the same configuration, budget and modulus leave
the same but for `OUT`, of which they leave the same entries below `len` (42_sequence_runner.md
R173). -/
theorem finalVars_reseed {s s' : State} (hconf : s.SameConfiguration s') (hn : s'.opN = s.opN)
    (hq : s'.opModulus = s.opModulus) (stop moden : Bool) :
    ∃ out', s'.finalVars stop moden true = (s.finalVars stop moden true).withOut out' ∧
      ∀ k, k < (s.finalVars stop moden true).len →
        OutBuffer.read out' k = OutBuffer.read (s.finalVars stop moden true).out k := by
  obtain ⟨hkind, hA, hB, hM, hL, hT, hseed⟩ := hconf
  have hstart : s'.runStart true = (s.runStart true).withOut s'.out := by
    simp [State.runStart, RunVars.withOut, hseed]
  have hmod : s'.modulusOf moden = s.modulusOf moden := by rw [State.modulusOf, hq]; rfl
  obtain ⟨out', hout'⟩ := runLoop_withOut s stop (s.modulusOf moden) (s.modulusOf moden) s.opN
    (s.runStart true) s'.out
  refine ⟨out', ?_, fun k hk => ?_⟩
  · rw [State.finalVars, runLoop_congr (engineStep_congr hkind hA hB hM hL hT), hmod, hn, hstart,
      hout']
  · have hexact := runLoop_outExact s stop (s.modulusOf moden) s.opN (s.runStart_len true)
    have hexact' := runLoop_outExact s stop (s.modulusOf moden) s.opN
      (v := (s.runStart true).withOut s'.out) rfl
    rw [hout'] at hexact'
    exact (hexact'.emitted k hk).trans (hexact.emitted k hk).symm

/-- Settles O27: a reseeded loop is told by the configuration, the budget and the modulus, and the
report of a successful run is clear. -/
theorem reseededRunsAreIdentical : Obligations.ReseededRunsAreIdentical := by
  intro s s' t t' stop moden hcfg hconf hg hn hq hr h h'
  have hr' : s'.RunReady moden := by
    simpa only [State.RunReady, hcfg, hg, hn, hq] using hr
  have ⟨hkind, _⟩ := hconf
  obtain ⟨out', hsame, hentries⟩ := finalVars_reseed hconf hn hq stop moden
  obtain rfl := eq_commitRun_of_ready hr h
  obtain rfl := eq_commitRun_of_ready hr' h'
  rw [hsame]
  exact ⟨rfl, rfl, rfl, by simp [State.statusWord, State.gKindRead, hg, hkind], hentries⟩

/-- Settles O28: a failed run fails again; a successful one writes over each entry of `OUT` the value
it holds. -/
theorem reseededRunRepeatedChangesNothing : Obligations.ReseededRunRepeatedChangesNothing := by
  intro s t stop moden hwf h
  obtain ⟨e, he, rfl⟩ | ⟨hr, ht⟩ := exec_run_next h
  · exact exec_run_of_error (s := s.dropResult.raise e) he stop true
  · have hready : t.RunReady moden := by rw [ht]; exact hr
    have hout : t.out = (s.finalVars stop moden true).out := by rw [ht]; rfl
    obtain ⟨out', hsame, hentries⟩ := finalVars_reseed (exec_run_sameConfiguration h)
      (by rw [ht]; rfl) (exec_run_opModulus h) stop moden
    have hkept : ∀ k, (t.finalVars stop moden true).len ≤ k →
        OutBuffer.read (t.finalVars stop moden true).out k = OutBuffer.read t.out k :=
      (runLoop_outHoldsRun t stop moden true t.opN).2
    have hcanon : OutBuffer.wf (s.finalVars stop moden true).out = true :=
      runLoop_out_wf s stop _ _ hwf
    have hcanonT : OutBuffer.wf t.out = true := by rw [hout]; exact hcanon
    have hcanon' : OutBuffer.wf (t.finalVars stop moden true).out = true :=
      runLoop_out_wf t stop _ _ hcanonT
    rw [hsame, hout] at hkept
    rw [hsame] at hcanon'
    have hfix : out' = (s.finalVars stop moden true).out :=
      OutBuffer.eq_of_read_eq hcanon' hcanon fun k =>
        (Nat.lt_or_ge k _).elim (hentries k) (hkept k)
    rw [exec_run_of_ready hready, hsame, hfix, ht]
    rfl

end Sys2Proof.Machine
end

section
/-! PROOFS. Host accesses: the accesses that are refused, what a write and a read of each register
do, the step that runs a command, and a host that is never stopped (43_host_access.md). -/

namespace Sys2Proof.Machine

/-! ### Register numbers -/

/-- A register is the one its number stands for (10_state.md R21). -/
@[simp] theorem Reg.ofNumber_number (r : Reg) : Reg.ofNumber r.number = some r := by
  cases r <;> rfl

/-- No two registers have the same number (10_state.md R21). -/
theorem Reg.number_injective : Function.Injective Reg.number := fun r q h =>
  Option.some.inj <| calc
    some r = Reg.ofNumber r.number := r.ofNumber_number.symm
    _ = Reg.ofNumber q.number := by rw [h]
    _ = some q := q.ofNumber_number

/-- Every register's number is below 0x0F (10_state.md R21). -/
theorem Reg.number_lt (r : Reg) : r.number < 0x0F := by
  cases r <;> decide

/-- Every number below 0x0F is assigned (10_state.md R21). -/
theorem Reg.exists_number_eq {n : Nat} (h : n < 0x0F) : ∃ r : Reg, r.number = n := by
  have hassigned : ∀ k < 0x0F, (Reg.ofNumber k).isSome = true := by decide
  obtain ⟨r, hr⟩ := Option.isSome_iff_exists.1 (hassigned n h)
  exact ⟨r, number_of_ofNumber hr⟩

/-- The numbers from 0x0F up are unassigned (43_host_access.md R193). -/
theorem Reg.ofNumber_of_unassigned {n : Nat} (h : 0x0F ≤ n) : Reg.ofNumber n = none := by
  cases hr : Reg.ofNumber n with
  | none => rfl
  | some r => exact absurd (number_of_ofNumber hr ▸ r.number_lt) (Nat.not_lt.2 h)

/-! ### Accesses that are refused -/

/-- A write to an unassigned number is refused (43_host_access.md R193). -/
theorem step_wr_unassigned {s : State} {n v : Nat} {rest : List HostEvent}
    (hs : s.host = .wr n v :: rest) (h : 0x0F ≤ n) :
    step s = .refused (.unassignedRegister n) := by
  rw [step_cons hs, hostEvent, hostWrite, Reg.ofNumber_of_unassigned h]

/-- A read of an unassigned number is refused (43_host_access.md R193). -/
theorem step_rd_unassigned {s : State} {n : Nat} {rest : List HostEvent}
    (hs : s.host = .rd n :: rest) (h : 0x0F ≤ n) :
    step s = .refused (.unassignedRegister n) := by
  rw [step_cons hs, hostEvent, hostRead, Reg.ofNumber_of_unassigned h]

/-- Settles O43: from 0x0F up no register has the number. -/
theorem unassignedRegistersAreRefused : Obligations.UnassignedRegistersAreRefused :=
  fun _ _ _ _ h => ⟨fun hs => step_rd_unassigned hs h, fun hs => step_wr_unassigned hs h⟩

/-! ### Host writes -/

/-- A step that writes a 32-bit value to `CMD` executes it as a word (43_host_access.md R190). -/
theorem step_wr_cmd {s : State} {v : Nat} {rest : List HostEvent} (hs : s.host = .wr 0 v :: rest)
    (hv : v < 2 ^ 32) : step s = execute (BitVec.ofNat 32 v) { s with host := rest } := by
  have hword : (BitVec.ofNat 32 v).toNat = v :=
    (BitVec.toNat_ofNat v 32).trans (Nat.mod_eq_of_lt hv)
  exact step_cmd (by rw [hword, hs])

/-- A step that writes a value of its width to a register other than `CMD` is the register write
(43_host_access.md R190). -/
theorem step_wr_reg {s : State} {r : Reg} {v : Nat} {rest : List HostEvent}
    (hs : s.host = .wr r.number v :: rest) (hv : v < 2 ^ r.width s.cfg) (hr : r ≠ .cmd) :
    step s = .next (({ s with host := rest } : State).writeReg r v) :=
  (step_cons hs).trans (hostWrite_reg r.ofNumber_number hv hr)

/-- Settles O41: each clause is `step_wr_reg` for its register, but for `CMD` and the unassigned
numbers. -/
theorem hostWriteByRegister : Obligations.HostWriteByRegister := by
  intro s rest n v hs
  have hreg (r : Reg) (hr : r ≠ .cmd) (hn : n = r.number) (hv : v < 2 ^ r.width s.cfg) :
      step s = .next (({ s with host := rest } : State).writeReg r v) :=
    step_wr_reg (hn ▸ hs) hv hr
  refine ⟨fun hn hv => step_wr_cmd (hn ▸ hs) hv, hreg .opA nofun, hreg .opB nofun, hreg .opM nofun,
    hreg .opLen nofun, hreg .opTaps nofun, hreg .opSeed nofun, hreg .opN nofun,
    hreg .opModulus nofun, hreg .outIdx nofun, hreg .status nofun, ?_, ?_, step_wr_unassigned hs⟩
  · rintro (hn | hn)
    · exact hreg .resPreperiod nofun hn
    · exact hreg .resLen nofun hn
  · rintro (hn | hn)
    · exact hreg .outData nofun hn
    · exact hreg .genState nofun hn

/-! ### Host reads -/

/-- `GKIND` as a number (10_state.md R35). -/
theorem gKindRead_toNat (s : State) :
    s.gKindRead.toNat = if s.gValid = true ∧ s.gKind = .lfsr then 1 else 0 := by
  rw [gKindRead_eq]
  by_cases hg : s.gValid = true <;> by_cases hk : s.gKind = .lfsr <;> simp [hg, hk]

/-- `STATUS` as a sum of its fields (43_host_access.md R191): no two of them share a bit. -/
theorem statusWord_toNat (s : State) :
    s.statusWord.toNat = s.gValid.toNat
      + 2 * (if s.gValid = true ∧ s.gKind = .lfsr then 1 else 0) + 4 * s.rValid.toNat
      + 256 * s.errKind.toNat + 4096 * s.errCause.toNat := by
  have hflags : ∀ g k r : Bool, (flagAt 0 g ||| flagAt 1 k ||| flagAt 2 r).toNat =
      g.toNat + 2 * k.toNat + 4 * r.toNat := by decide
  have hkind : ∀ e : BitVec 2, (e.setWidth 32 <<< 8).toNat = 2 ^ 8 * e.toNat := by decide
  have hcause : ∀ e : BitVec 4, (e.setWidth 32 <<< 12).toNat = 2 ^ 12 * e.toNat := by decide
  have hg := s.gValid.toNat_lt
  have hk := s.gKindRead.toNat_lt
  have hr := s.rValid.toNat_lt
  have he := s.errKind.isLt
  rw [← gKindRead_toNat, State.statusWord, BitVec.toNat_or, BitVec.toNat_or, hflags, hkind, hcause,
    Nat.or_comm _ (2 ^ 8 * _), ← Nat.two_pow_add_eq_or_of_lt (by omega),
    Nat.or_comm _ (2 ^ 12 * _), ← Nat.two_pow_add_eq_or_of_lt (by omega)]
  omega

/-- Within a result `OUT_DATA` reads the entry that `OUT_IDX` selects (10_state.md R33). -/
theorem outData_of_read {s : State} {w : Nat} (hr : s.rValid = true) (hi : s.outIdx < s.resLen)
    (hw : OutBuffer.read s.out s.outIdx = some w) : s.outData = w := by
  have hwindow : s.outWindow = some w := (if_pos ⟨hr, hi⟩).trans hw
  rw [State.outData, hwindow]

/-- Outside a result `OUT_DATA` reads some `W`-bit value (10_state.md R33). -/
theorem outData_fits_outside_result {s : State} (h : s.rValid = false ∨ s.resLen ≤ s.outIdx) :
    Fits s.cfg.W s.outData := by
  have hwindow : s.outWindow = none := if_neg fun ⟨hr, hi⟩ =>
    h.elim (fun hr' => by simp [hr'] at hr) (fun hi' => absurd hi (Nat.not_lt.2 hi'))
  rw [State.outData, hwindow]
  exact Nat.mod_lt _ (Nat.two_pow_pos _)

/-- A step that reads an assigned register logs what it holds (43_host_access.md R191). -/
theorem step_rd_reg {s : State} {r : Reg} {rest : List HostEvent}
    (hs : s.host = .rd r.number :: rest) :
    step s = .next { s with host := rest, readLog := s.readReg r :: s.readLog } := by
  have hstep : step s = .next (({ s with host := rest } : State).logRead r) :=
    (step_cons hs).trans (hostRead_reg r.ofNumber_number)
  obtain ⟨q, hq, ht⟩ := step_rd_next hs hstep
  obtain rfl : r = q := Option.some.inj (r.ofNumber_number.symm.trans hq)
  rw [hstep, ht]

/-- Settles O42: the value logged is that of the register the number stands for. -/
theorem hostReadByRegister : Obligations.HostReadByRegister := by
  intro s rest n hs
  refine ⟨step_rd_unassigned hs, fun hlt => ?_⟩
  obtain ⟨r, rfl⟩ := Reg.exists_number_eq hlt
  have hread (q : Reg) (h : r.number = q.number) : s.readReg r = s.readReg q := by
    rw [Reg.number_injective h]
  exact ⟨_, s.readReg r, step_rd_reg hs, rfl, hread .cmd,
    fun h => (hread .status h).trans (statusWord_toNat s), hread .opA, hread .opB, hread .opM,
    hread .opLen, hread .opTaps, hread .opSeed, hread .opN, hread .opModulus, hread .resPreperiod,
    hread .resLen, hread .outIdx,
    fun h hr hi _ hw => (hread .outData h).trans (outData_of_read hr hi hw),
    fun h hout => (hread .outData h).trans_lt (outData_fits_outside_result hout), hread .genState⟩

/-! ### The step that runs a command -/

/-- With nothing to do the block holds its state (10_state.md R20). -/
theorem step_idle {s : State} (h : s.host = []) : step s = .next s := by
  simp only [step, h]

/-- A step whose next access writes a legal word to `CMD` is its command (43_host_access.md R192). -/
theorem step_instr {s : State} {c : CmdWord} {rest : List HostEvent} {i : Instr}
    (hs : s.host = .wr 0 c.toNat :: rest) (h : decode c = .instr i) :
    step s = exec i { s with host := rest } :=
  (step_cmd hs).trans (execute_instr _ h)

/-- `withFetchWord` puts the write of the word's 32 bits to `CMD` first. -/
theorem withFetchWord_host (s : State) (w : Nat) :
    (s.withFetchWord 32 w).host = .wr 0 (BitVec.ofNat 32 w).toNat :: s.host := by
  rw [BitVec.toNat_ofNat]
  rfl

/-- Settles O5: taking the access off the list again gives back the state that `withFetchWord` was
given. -/
theorem stepRunsTheDecodedCommand : Obligations.StepRunsTheDecodedCommand :=
  ⟨fun _ _ _ _ hs h => step_instr hs h, fun s w _ _ h => step_instr (withFetchWord_host s w) h,
    fun _ h => step_idle h⟩

/-! ### A host that is never stopped -/

/-- Every word ends in a next state (42_sequence_runner.md R176, 60_exceptions.md R212). -/
theorem exists_execute_next (c : CmdWord) (s : State) : ∃ t, execute c s = .next t := by
  cases h : decode c with
  | illegal why => exact ⟨_, execute_illegal s h⟩
  | instr i =>
    rw [execute_instr s h]
    exact everyCommandEnds i s

/-- An access with a meaning is not refused (43_host_access.md R190, R193). -/
theorem exists_hostEvent_next {e : HostEvent} {s : State} (h : e.wf s.cfg = true) :
    ∃ t, hostEvent e s = .next t := by
  cases e with
  | reset => exact ⟨_, rfl⟩
  | rd n =>
    obtain ⟨r, hr⟩ := Option.isSome_iff_exists.1 h
    exact ⟨_, hostRead_reg hr⟩
  | wr n v =>
    cases hr : Reg.ofNumber n with
    | none => simp [HostEvent.wf, hr] at h
    | some r =>
      have hv : v < 2 ^ r.width s.cfg := by simpa [HostEvent.wf, hr] using h
      by_cases hc : r = .cmd
      · have hcmd : hostEvent (.wr n v) s = execute (BitVec.ofNat 32 v) s := by
          simp only [hostEvent, hostWrite, hr, if_pos hv, if_pos hc]
        rw [hcmd]
        exact exists_execute_next _ s
      · exact ⟨_, hostWrite_reg hr hv hc⟩

/-- No command touches the host's list (10_state.md R20). -/
theorem exec_host {i : Instr} {s t : State} (h : exec i s = .next t) : t.host = s.host := by
  cases i with
  | constructLcg => obtain ⟨e, -, rfl⟩ | ⟨-, rfl⟩ := exec_constructLcg_next h <;> simp
  | constructLfsr => obtain ⟨e, -, rfl⟩ | ⟨-, rfl⟩ := exec_constructLfsr_next h <;> simp
  | run stop moden reseed => obtain ⟨e, -, rfl⟩ | ⟨-, rfl⟩ := exec_run_next h <;> simp

/-- No word touches the host's list (10_state.md R20). -/
theorem execute_host {c : CmdWord} {s t : State} (h : execute c s = .next t) : t.host = s.host := by
  cases hd : decode c with
  | illegal why =>
    rw [execute_illegal s hd] at h
    cases h
    simp
  | instr i =>
    rw [execute_instr s hd] at h
    exact exec_host h

/-- No access touches what the host has still to do after it (log entry 7). -/
theorem hostEvent_host {e : HostEvent} {s t : State} (h : hostEvent e s = .next t) :
    t.host = s.host := by
  cases e with
  | reset =>
    cases h
    rfl
  | rd n =>
    obtain ⟨r, -, rfl⟩ := hostRead_next h
    simp
  | wr n v =>
    obtain ⟨r, -, -, ⟨-, hcmd⟩ | ⟨-, rfl⟩⟩ := hostWrite_next h
    · exact execute_host hcmd
    · simp

/-- A host whose accesses all have a meaning is not stopped by the next step, and those left after it
have one too: the step takes the first off the list and keeps the build. -/
theorem exists_step_next_hostWf {s : State} (h : s.hostWf = true) :
    ∃ t, step s = .next t ∧ t.hostWf = true := by
  cases hs : s.host with
  | nil => exact ⟨s, step_idle hs, h⟩
  | cons e rest =>
    obtain ⟨he, hrest⟩ : e.wf s.cfg = true ∧ rest.all (HostEvent.wf s.cfg) = true := by
      simpa only [State.hostWf, hs, List.all_cons, Bool.and_eq_true] using h
    obtain ⟨t, ht⟩ := exists_hostEvent_next (s := { s with host := rest }) he
    have hstep : step s = .next t := (step_cons hs).trans ht
    refine ⟨t, hstep, ?_⟩
    rw [State.hostWf, stepKeepsTheBuild s t hstep, hostEvent_host ht]
    exact hrest

/-- A run of any machine goes on from the state its first step answers. -/
theorem core_run_succ {M : Host.Core} {s t : M.State} (h : M.step s = .next t) (k : Nat) :
    M.run (k + 1) s = M.run k t := by
  rw [Host.Core.run, h]

/-- Settles O7, by induction on the number of steps: each keeps the host's list well formed. -/
theorem wellFormedHostIsNeverStopped : Obligations.WellFormedHostIsNeverStopped := by
  intro k
  induction k with
  | zero => exact fun s _ => ⟨s, rfl⟩
  | succ k ih =>
    intro s h
    obtain ⟨t, ht, hwf⟩ := exists_step_next_hostWf h
    obtain ⟨u, hu⟩ := ih t hwf
    exact ⟨u, (core_run_succ (M := core) ht k).trans hu⟩

end Sys2Proof.Machine
end

section
/-! PROOFS. The error report: what a command raises, what a failed command leaves unchanged, and what
the report does not depend on (60_exceptions.md). -/

namespace Sys2Proof.Machine

/-! ### The kinds of the causes -/

/-- Every cause has a kind, which is not "no error" (60_exceptions.md R205). -/
theorem ErrorCause.kind_ne_zero (e : ErrorCause) : e.kind ≠ 0#2 := by
  cases e <;> decide

/-- An illegal word raises an IllegalCommand (60_exceptions.md R203). -/
@[simp] theorem illegalCause_kind (why : IllegalWord) : (illegalCause why).kind = 3#2 := by
  cases why <;> rfl

/-- The checks of `CONSTRUCT.LCG` raise ConfigurationErrors (60_exceptions.md R201). -/
theorem lcgError_kind {s : State} {e : ErrorCause} (h : s.lcgError = some e) : e.kind = 1#2 := by
  unfold State.lcgError at h
  split_ifs at h <;> cases h <;> rfl

/-- The checks of `CONSTRUCT.LFSR` raise ConfigurationErrors (60_exceptions.md R201). -/
theorem lfsrError_kind {s : State} {e : ErrorCause} (h : s.lfsrError = some e) : e.kind = 1#2 := by
  unfold State.lfsrError at h
  split_ifs at h <;> cases h <;> rfl

/-- The entry checks of `RUN` raise an IllegalCommand without a generator, an InvalidArgument with
one (60_exceptions.md R202, R203). -/
theorem runError_kind {s : State} {moden : Bool} {e : ErrorCause} (h : s.runError moden = some e) :
    (s.gValid = true ∧ e.kind = 2#2) ∨ (s.gValid = false ∧ e.kind = 3#2) := by
  unfold State.runError at h
  split_ifs at h with hg <;> cases h
  · exact .inr ⟨hg, rfl⟩
  all_goals exact .inl ⟨Bool.eq_true_of_not_eq_false hg, rfl⟩

/-! ### What a command answers -/

/-- The first check of the command that applies (60_exceptions.md R210). -/
def State.commandError (i : Instr) (s : State) : Option ErrorCause :=
  match i with
  | .constructLcg => s.lcgError
  | .constructLfsr => s.lfsrError
  | .run _ moden _ => s.runError moden

/-- The state with the validity flag cleared that the command clears at its entry: `GVALID` for a
CONSTRUCT, `RVALID` for a `RUN`. -/
def State.dropAtEntry (i : Instr) (s : State) : State :=
  match i with
  | .constructLcg | .constructLfsr => s.dropGenerator
  | .run _ _ _ => s.dropResult

/-- No check of the command applies iff its operands are in range. -/
theorem commandError_eq_none_iff (i : Instr) (s : State) :
    s.commandError i = none ↔ s.ChecksPass i := by
  cases i with
  | constructLcg => exact lcgError_eq_none_iff s
  | constructLfsr => exact lfsrError_eq_none_iff s
  | run stop moden reseed => exact runError_eq_none_iff moden s

/-- A command raised the first error that applies, having cleared its validity flag, or its checks
pass and it left no error (60_exceptions.md R211, R212). -/
theorem exec_next {i : Instr} {s t : State} (h : exec i s = .next t) :
    (∃ e, s.commandError i = some e ∧ t = (s.dropAtEntry i).raise e) ∨
      (s.ChecksPass i ∧ t.errKind = 0#2 ∧ t.errCause = 0#4) := by
  cases i with
  | constructLcg =>
    exact (exec_constructLcg_next h).imp_right fun ⟨hok, ht⟩ =>
      ⟨(lcgError_eq_none_iff s).1 hok, by simp [ht], by simp [ht]⟩
  | constructLfsr =>
    exact (exec_constructLfsr_next h).imp_right fun ⟨hok, ht⟩ =>
      ⟨(lfsrError_eq_none_iff s).1 hok, by simp [ht], by simp [ht]⟩
  | run stop moden reseed =>
    exact (exec_run_next h).imp_right fun ⟨hready, ht⟩ => ⟨hready, by simp [ht], by simp [ht]⟩

/-- A CONSTRUCT raises ConfigurationErrors only; a `RUN` raises InvalidArguments when there is a
generator and an IllegalCommand when there is none (60_exceptions.md R201 to R203). -/
theorem commandError_kind {i : Instr} {s : State} {e : ErrorCause} (h : s.commandError i = some e) :
    ((i = .constructLcg ∨ i = .constructLfsr) ∧ e.kind = 1#2) ∨
      ((∃ stop moden reseed, i = .run stop moden reseed) ∧
        ((s.gValid = true ∧ e.kind = 2#2) ∨ (s.gValid = false ∧ e.kind = 3#2))) := by
  cases i with
  | constructLcg => exact .inl ⟨.inl rfl, lcgError_kind h⟩
  | constructLfsr => exact .inl ⟨.inr rfl, lfsrError_kind h⟩
  | run stop moden reseed => exact .inr ⟨⟨stop, moden, reseed, rfl⟩, runError_kind h⟩

/-! ### The obligations -/

/-- Settles O34: an illegal word raises its cause and does nothing else; a command that failed raised
an error in the state it had entered with. -/
theorem failedCommandLeavesEverythingElse : Obligations.FailedCommandLeavesEverythingElse := by
  refine ⟨fun s c why hd => ?_, fun i s t h hne => ?_⟩
  · rw [execute_illegal s hd, State.raise, illegalCause_kind]
  · obtain ⟨e, -, rfl⟩ | ⟨-, hkind, -⟩ := exec_next h
    · refine ⟨⟨e, rfl, rfl⟩, ?_, ?_⟩
      · rintro (rfl | rfl) <;> rfl
      · rintro ⟨stop, moden, reseed, rfl⟩
        rfl
    · exact absurd hkind hne

/-- Settles O35: the kind left is that of the check that applied, or 0 when none did. -/
theorem errorKindsByCommand : Obligations.ErrorKindsByCommand := by
  intro i s t h
  obtain ⟨e, he, rfl⟩ | ⟨-, hkind, -⟩ := exec_next h
  · rw [State.raise_errKind]
    obtain ⟨hi, hk⟩ | ⟨hi, ⟨hg, hk⟩ | ⟨hg, hk⟩⟩ := commandError_kind he <;> rw [hk]
    · exact ⟨fun _ => hi, nofun, nofun⟩
    · exact ⟨nofun, fun _ => ⟨hi, hg⟩, nofun⟩
    · exact ⟨nofun, nofun, fun _ => ⟨hi, hg⟩⟩
  · rw [hkind]
    exact ⟨nofun, nofun, nofun⟩

/-- A word does the same after the report was cleared: a command clears it first, and an illegal word
overwrites it (60_exceptions.md R211). -/
theorem execute_clearError (c : CmdWord) (s : State) : execute c s.clearError = execute c s := by
  cases hd : decode c with
  | illegal why =>
    rw [execute_illegal _ hd, execute_illegal _ hd]
    rfl
  | instr i =>
    rw [execute_instr _ hd, execute_instr _ hd]
    cases i <;> rfl

/-- Settles O33: two states that differ in the report alone are the same once it is cleared; a
command leaves no error iff no check applied. -/
theorem everyCommandClearsTheReport : Obligations.EveryCommandClearsTheReport := by
  refine ⟨fun s c k e => ?_, fun i s t h => ?_⟩
  · calc execute c { s with errKind := k, errCause := e }
      _ = execute c s.clearError := (execute_clearError c _).symm
      _ = execute c s := execute_clearError c s
  · obtain ⟨e, he, rfl⟩ | ⟨hpass, hreport⟩ := exec_next h
    · refine ⟨fun hpass => ?_, fun _ => ⟨e, rfl, rfl, e.kind_ne_zero⟩⟩
      rw [(commandError_eq_none_iff i s).2 hpass] at he
      cases he
    · exact ⟨fun _ => hreport, fun hfail => absurd hpass hfail⟩

end Sys2Proof.Machine
end

section
/-! PROOFS. Reset and the order of commands: what a `RUN` and a CONSTRUCT meet after a run, after a
CONSTRUCT and after a reset event (70_reset_and_hazards.md). -/

namespace Sys2Proof.Machine

/-! ### A run after a run -/

/-- The raw sequence of a state whose `X` is `e[m]` of another's, with the same engine, is the other's
from `e[m+1]` on (42_sequence_runner.md R168). -/
theorem rawValue_of_x_eq_rawValue {s t : State} {x0 m : Nat} (hengine : t.engineStep = s.engineStep)
    (hx : t.x = s.rawValue x0 m) (k : Nat) :
    t.rawValue (t.startOf false) k = s.rawValue x0 (m + 1 + k) := by
  induction k with
  | zero => exact (congrFun hengine _).trans (congrArg s.engineStep hx)
  | succ k ih => rw [State.rawValue_succ, hengine, ih, ← Nat.add_assoc, State.rawValue_succ]

/-- A `RUN` leaves the engine as it was (10_state.md R30). -/
theorem exec_run_engineStep {stop moden reseed : Bool} {s t : State}
    (h : exec (.run stop moden reseed) s = .next t) : t.engineStep = s.engineStep := by
  obtain ⟨hkind, hA, hB, hM, hLen, hTaps, -⟩ := exec_run_sameConfiguration h
  exact engineStep_congr hkind hA hB hM hLen hTaps

/-- Settles O29: a full run leaves `e[OP_N - 1]` in `X`, a run that stopped at the first repeat `p`
leaves `e[p]`, and the next run steps on from `X`. -/
theorem runContinuesFromWhereTheLastLeftOff : Obligations.RunContinuesFromWhereTheLastLeftOff := by
  intro s t moden reseed hr
  refine ⟨fun h k => ?_, fun p hp hfirst h => ?_⟩
  · have ⟨_, hpos, _⟩ := hr
    have hx : t.x = s.rawValue (s.startOf reseed) (s.opN - 1) := by
      cases (exec_run_full hr reseed).symm.trans h
      rfl
    have hnext := rawValue_of_x_eq_rawValue (exec_run_engineStep h) hx k
    rwa [Nat.sub_add_cancel hpos] at hnext
  · obtain ⟨hstopped, -⟩ := stoppingRunEndsAtFirstRepeat s moden reseed hr
    obtain ⟨⟨out, hrun, -⟩, -⟩ := hstopped p hp hfirst
    have hx : t.x = s.rawValue (s.startOf reseed) p := by
      cases hrun.symm.trans h
      rfl
    exact rawValue_of_x_eq_rawValue (exec_run_engineStep h) hx

/-! ### A `RUN` after a CONSTRUCT -/

/-- A CONSTRUCT leaves a generator iff it leaves no error (40_lcg_engine.md R124, 41_lfsr_engine.md
R147). -/
theorem exec_construct_gValid_iff {i : Instr} {s t : State}
    (hi : i = .constructLcg ∨ i = .constructLfsr) (h : exec i s = .next t) :
    t.gValid = true ↔ t.errKind = 0#2 := by
  obtain ⟨e, rfl⟩ | ⟨-, rfl⟩ | ⟨-, rfl⟩ := exec_construct_next hi h
  · simp [e.kind_ne_zero]
  · simp
  · simp

/-- Settles O40: an error leaves no generator to run; a success leaves one, and the result as the
frame of the CONSTRUCTs says. -/
theorem runAfterFailedConstructIsRefused : Obligations.RunAfterFailedConstructIsRefused := by
  intro i s t hi h
  have hvalid := exec_construct_gValid_iff hi h
  refine ⟨fun hfail => ?_, fun hok => ?_⟩
  · exact exec_run_of_no_generator (Bool.eq_false_of_not_eq_true (mt hvalid.1 hfail))
  · obtain ⟨-, hres, hpre, hlen, hout, -⟩ := constructFrame i s t hi h
    exact ⟨hvalid.2 hok, hres, hpre, hlen, hout⟩

/-! ### The first command after a reset event -/

/-- `STATUS` with a generator, no result and no error (10_state.md R35, 43_host_access.md R191). -/
theorem statusWord_of_generator_only {s : State} (hg : s.gValid = true) (hr : s.rValid = false)
    (hk : s.errKind = 0#2) (hc : s.errCause = 0#4) :
    s.statusWord = if s.gKind = .lfsr then 0x00000003#32 else 0x00000001#32 := by
  simp only [State.statusWord, State.gKindRead, hg, hr, hk, hc]
  cases s.gKind <;> decide

/-- `CONSTRUCT.LCG` with legal operands, in a state without a result (40_lcg_engine.md R124). -/
theorem exec_constructLcg_status {s : State} (hr : s.rValid = false)
    (h : s.ChecksPass .constructLcg) :
    ∃ u, exec .constructLcg s = .next u ∧ u.statusWord = 0x00000001#32 ∧
      u.readReg .genState = s.opSeed :=
  ⟨_, exec_constructLcg_of_checksPass h, statusWord_of_generator_only rfl hr rfl rfl, rfl⟩

/-- `CONSTRUCT.LFSR` with legal operands, in a state without a result (41_lfsr_engine.md R147). -/
theorem exec_constructLfsr_status {s : State} (hr : s.rValid = false)
    (h : s.ChecksPass .constructLfsr) :
    ∃ u, exec .constructLfsr s = .next u ∧ u.statusWord = 0x00000003#32 ∧
      u.readReg .genState = s.opSeed :=
  ⟨_, exec_constructLfsr_of_checksPass h, statusWord_of_generator_only rfl hr rfl rfl, rfl⟩

/-- Settles O47: the reset event leaves neither a generator nor a result, and the checks of a
CONSTRUCT read its operands and the build alone. -/
theorem firstCommandsAfterReset : Obligations.FirstCommandsAfterReset := by
  intro s t rest hs h
  rw [step_cons hs] at h
  cases h
  refine ⟨exec_run_of_no_generator rfl, fun m seed hm hw hseed => ?_,
    fun l taps seed hl hw htaps hseed => ?_⟩
  · have hpos : 1 ≤ m.toNat := by bv_omega
    exact exec_constructLcg_status rfl ⟨hpos, hw, hseed⟩
  · have hpos : 1 ≤ l.toNat := by bv_omega
    exact exec_constructLfsr_status rfl ⟨hpos, hw, htaps, hseed⟩

end Sys2Proof.Machine
end
